-- ==== Sys2Proof/Word.lean ====
section
/-!
DEFINITION. The bit-vector types of the block, one name per quantity of the spec (00_scope.md R8,
10_state.md R24), and the two switch levels (R10).
-/
namespace Sys2Proof

/-- Eight bits: a ROM entry, a byte of the outbound stream, a brightness (R19, R23, R31). -/
abbrev Byte := BitVec 8

/-- One digital level: 0 is LOW (active, switch on), 1 is HIGH (inactive, switch off) (R10). -/
abbrev Level := BitVec 1

/-- PHASE, the index into the waveform ROM (R14). -/
abbrev Phase := BitVec 8

/-- A raw analog sample, 10 bits unsigned (R25). -/
abbrev RawSample := BitVec 10

/-- Depth, 8 bits unsigned (R24, R90). -/
abbrev Depth := BitVec 8

/-- A waveform sample: the 8-bit pattern of a signed integer (R24, R59). -/
abbrev Sample := BitVec 8

/-- The product of depth and sample: the 16-bit pattern of a signed integer (R66). -/
abbrev Product := BitVec 16

/-- A 14-bit ControlValue (R24, R68). -/
abbrev ControlValue := BitVec 14

/-- A Period in microseconds, 14 bits unsigned (R24, R89). -/
abbrev Period := BitVec 14

/-- A septet, 7 bits unsigned (R8). -/
abbrev Septet := BitVec 7

/-- The gate selector: bit 1 is PREV_SW, bit 0 is sw (R46). -/
abbrev Selector := BitVec 2

/-- LOW: active, switch on (R10). -/
abbrev Level.low : Level := 0#1

/-- HIGH: inactive, switch off (R10). -/
abbrev Level.high : Level := 1#1

end Sys2Proof
end

