-- ==== Sys2Proof/Syntax.lean ====
section
/-!
DEFINITION. The 17 operations of the block (opcode_table.json, 30_encoding.md R45 to R54), one
constructor per row.
-/
namespace Sys2Proof

/-- The three actions of the output gate (42_enable_gate.md R75). -/
inductive GateAction where
  /-- GATE.MOD: pass the modulated value (R76) -/
  | mod
  /-- GATE.NEUTRAL: emit the one neutral message of an enable edge (R77) -/
  | neutral
  /-- GATE.IDLE: emit nothing (R78) -/
  | idle
deriving DecidableEq, Repr

/-- The operations. Those of format ALWAYS have no encoding (R53): they take their operands from the
registers, transients and input ports that their rules name. -/
inductive Instr where
  /-- GATE.MOD (R76). `prev` is bit 1 of the selector, a don't-care of the row (R47). -/
  | gateMod (prev : Level)
  /-- GATE.NEUTRAL (R77) -/
  | gateNeutral
  /-- GATE.IDLE (R78) -/
  | gateIdle
  /-- ENCODE (R84) of the 14-bit value `v`, whose septets are the fields l and h of MSG24 (R48) -/
  | encode (v : ControlValue)
  /-- READ_PERIOD (R89) -/
  | readPeriod
  /-- READ_DEPTH (R90) -/
  | readDepth
  /-- LOOKUP (R59) -/
  | lookup
  /-- MULT (R66) -/
  | mult
  /-- MAP (R65), with its five integer operands -/
  | map (x inMin inMax outMin outMax : Int)
  /-- COMPUTE (R68) -/
  | compute
  /-- SAMPLE_SW (R74) -/
  | sampleSw
  /-- FEEDBACK (R92) -/
  | feedback
  /-- WAIT (R94) -/
  | wait
  /-- UPDATE_PREV (R79) -/
  | updatePrev
  /-- ADVANCE (R61) -/
  | advance
  /-- ITERATE, one iteration of the whole loop (R98) -/
  | iterate
  /-- ITERATE_CORE, one iteration of the core alone (R100) -/
  | iterateCore
deriving DecidableEq, Repr

end Sys2Proof
end

