-- ==== Sys2Proof/Decode.lean ====
section
/-!
DEFINITION. The two bit-level encodings of the block, GATE2 (30_encoding.md R46, R47) and MSG24
(R48, R49): the decoder, total on any bytes and rejecting by name, the encoder written from the same
tables, and the reading of a word numbered as opcode_table.json numbers it. The operations of format
ALWAYS have no encoding (R53).
-/
namespace Sys2Proof

/-- Why a byte sequence encodes no operation. -/
inductive DecodeError where
  /-- one byte that is no 2-bit selector zero-extended to a byte -/
  | notASelector
  /-- three bytes that do not have the fixed bits of MSG24 (R48) -/
  | notAMessage
  /-- neither one byte (GATE2) nor three bytes (MSG24): a message is always exactly three bytes, the
  selector always two bits (R52) -/
  | wrongLength
deriving DecidableEq, Repr

/-- The gate selector: PREV_SW in bit 1, sw in bit 0 (R46). -/
def selectorOf (prev cur : Level) : Selector := prev ++ cur

/-- Bit 1 of the selector, the previous level (R46). -/
def Selector.prev (sel : Selector) : Level := sel.extractLsb' 1 1

/-- Bit 0 of the selector, the current level (R46). -/
def Selector.cur (sel : Selector) : Level := sel.extractLsb' 0 1

/-- The selector map, total on the four values (R47): `cur` = 0 is GATE.MOD whatever `prev` is. -/
def gateAction (sel : Selector) : GateAction :=
  if sel &&& 0b01#2 = 0b00#2 then .mod
  else if sel &&& 0b11#2 = 0b01#2 then .neutral
  else .idle

/-- The operation that performs a gate action, from the selector that chose it. -/
def gateInstr (sel : Selector) : Instr :=
  match gateAction sel with
  | .mod => .gateMod (Selector.prev sel)
  | .neutral => .gateNeutral
  | .idle => .gateIdle

/-- The field `low` of a value: v[6:0] (R49). -/
def lowOf (v : ControlValue) : Septet := v.extractLsb' 0 7

/-- The field `high` of a value: v[13:7] (R49). -/
def highOf (v : ControlValue) : Septet := v.extractLsb' 7 7

/-- The receiver's reconstruction `(high << 7) | low` (R49). -/
def valueOf (low high : Septet) : ControlValue := high ++ low

/-- The byte that holds a selector: the two bits zero-extended. -/
def selectorByte (sel : Selector) : Byte := sel.zeroExtend 8

/-- Decodes one byte as a selector (GATE2). -/
def decodeSelector (b : Byte) : Except DecodeError Instr :=
  if b.extractLsb' 2 6 = 0#6 then .ok (gateInstr (b.extractLsb' 0 2)) else .error .notASelector

/-- Decodes three bytes as a message (MSG24): the status byte 0xE0, then two bytes with bit 7 clear,
the low septet first (R48). -/
def decodeMessage (b0 b1 b2 : Byte) : Except DecodeError Instr :=
  if b0 = 0xE0#8 ∧ b1.extractLsb' 7 1 = 0#1 ∧ b2.extractLsb' 7 1 = 0#1 then
    .ok (.encode (valueOf (b1.extractLsb' 0 7) (b2.extractLsb' 0 7)))
  else .error .notAMessage

/-- The decoder, total on any bytes: one byte is read as GATE2, three as MSG24, any other number is
neither. -/
def decode (bytes : List Byte) : Except DecodeError Instr :=
  match bytes with
  | [b] => decodeSelector b
  | [b0, b1, b2] => decodeMessage b0 b1 b2
  | _ => .error .wrongLength

/-- The encoder: the bytes of an operation, and none for the operations of format ALWAYS (R53). -/
def encode (i : Instr) : Option (List Byte) :=
  match i with
  | .gateMod prev => some [selectorByte (selectorOf prev Level.low)]
  | .gateNeutral => some [selectorByte (selectorOf Level.low Level.high)]
  | .gateIdle => some [selectorByte (selectorOf Level.high Level.high)]
  | .encode v => some [0xE0#8, (lowOf v).zeroExtend 8, (highOf v).zeroExtend 8]
  | .readPeriod => none
  | .readDepth => none
  | .lookup => none
  | .mult => none
  | .map _ _ _ _ _ => none
  | .compute => none
  | .sampleSw => none
  | .feedback => none
  | .wait => none
  | .updatePrev => none
  | .advance => none
  | .iterate => none
  | .iterateCore => none

/-- The receiver's parser of TX, from the MSG24 row alone (R54): messages are delimited by counting three
bytes (R52); none where the bytes are no sequence of whole messages. -/
def parseTx : List Byte → Option (List ControlValue)
  | [] => some []
  | b0 :: b1 :: b2 :: rest =>
    match decodeMessage b0 b1 b2, parseTx rest with
    | .ok (.encode v), some vs => some (v :: vs)
    | _, _ => none
  | _ => none

/-- The `k` bytes of a number, the most significant first. -/
def bytesOf : Nat → Nat → List Byte
  | 0, _ => []
  | k + 1, w => BitVec.ofNat 8 (w / 256 ^ k) :: bytesOf k w

/-- The bytes of a word of the table. The table numbers a message as one 24-bit pattern with the first
byte sent in bits 23..16 (R48, 92_eei_decisions.md D24; log 11), so the bytes stand most significant
first; a selector is one byte. -/
def tableBytes (nbits w : Nat) : List Byte := bytesOf ((nbits + 7) / 8) w

/-- The operation the decoder reads from a word of opcode_table.json; none where it refuses. -/
def decodeTableWord (nbits w : Nat) : Option Instr :=
  match decode (tableBytes nbits w) with
  | .ok i => some i
  | .error _ => none

end Sys2Proof
end

