-- ==== Sys2Proof/Config.lean ====
section
/-!
DEFINITION. What is fixed for a machine and what the spec leaves free: the input records of the two
interfaces (10_state.md R25, R26), the type of the parameters (00_scope.md R6; their values for this
hardware stand in Machine/Params.lean), the type of the waveform ROM (20_memory.md R32), and the free
values, constants without a body.
-/
namespace Sys2Proof

/-- The input record of one iteration of the whole loop (R25). A raw sample is 10 bits wide, so one
outside [0, 1023] cannot be expressed (R91, 93_implementation_defined.md U1). -/
structure LoopIn where
  /-- raw analog sample for Period -/
  rawRate : RawSample
  /-- raw analog sample for Depth -/
  rawDepth : RawSample
  /-- level of the enable switch -/
  sw : Level
deriving DecidableEq, Repr, Inhabited

/-- The input record of one iteration of the core alone (R26). -/
structure CoreIn where
  /-- Depth, any 8-bit value -/
  depth : Depth
  /-- level of the enable switch -/
  sw : Level
deriving DecidableEq, Repr, Inhabited

/-- The parameters of the block (R6). None can change after reset (R21). -/
structure Params where
  /-- TABLE_SIZE, modulus of PHASE -/
  tableSize : Nat
  /-- RATE_MIN, least Period in microseconds -/
  rateMin : Int
  /-- RATE_MAX, greatest Period in microseconds -/
  rateMax : Int
  /-- numerator of EFFECT_STRENGTH, used by no operation (R72) -/
  effectNum : Nat
  /-- denominator of EFFECT_STRENGTH -/
  effectDen : Nat
  /-- DEPTH_MIN, least ControlValue -/
  depthMin : Int
  /-- DEPTH_MAX, greatest ControlValue -/
  depthMax : Int
  /-- NEUTRAL, the "no effect" ControlValue -/
  neutral : ControlValue
  /-- STATUS, first byte of every message -/
  status : Byte
  /-- RAW_MAX, top of the raw analog range -/
  rawMax : Int
  /-- SRC_MIN, bottom of the modulator's source range -/
  srcMin : Int
  /-- SRC_MAX, top of the modulator's source range -/
  srcMax : Int
  /-- greatest Depth and greatest brightness, the top of [0, 255] (R90, R92) -/
  levelMax : Int
  /-- PREV_SW_RESET (92_eei_decisions.md D4) -/
  prevSwReset : Level
  /-- BRIGHT_RESET (92_eei_decisions.md D8) -/
  brightReset : Byte
deriving DecidableEq, Repr

/-- The contents of the waveform ROM: "a function from an 8-bit index to a signed 8-bit integer", held as
a configuration value and not as state (R32). An entry is its 8-bit pattern (R31, R33), so every index
0 to 255 has one, and no other index exists (R36, R38). -/
abbrev Wave := Phase → Byte

/-- Free value: the waveform entries other than entry 0 (R34; log 6). Every 8-bit pattern is the
pattern of an integer in [-128, 127], which is all that R7 asks of them. -/
opaque Config.waveEntry : BitVec 8 → Byte

/-- Free value: the input record of whole-loop iteration `n` when the stimulus lists none (R11, D18;
log 2). -/
opaque Config.loopIn : Nat → LoopIn

/-- Free value: the input record of core-only iteration `n` when the stimulus lists none (R26; log 2). -/
opaque Config.coreIn : Nat → CoreIn

/-- Free value: FEEDBACK of a ControlValue outside [DEPTH_MIN, DEPTH_MAX], for which R92 states no
8-bit result (log 9). -/
opaque Config.feedbackOutside : ControlValue → Byte

/-- Free value: MAP of five integers without in_max > in_min, for which R65 states no result (log 10). -/
opaque Config.mapOutside : Int → Int → Int → Int → Int → Int

/-- BAUD, the signalling rate of the byte sink, used by no rule (92_eei_decisions.md D23; log 22). -/
opaque Config.baud : Nat

end Sys2Proof
end

