-- ==== Sys2Proof/Machine/Params.lean ====
section
/-!
DEFINITION. The values this hardware takes for the parameters of 00_scope.md R6, hardwired and the
same after every reset (10_state.md R21), and the waveform ROM, fixed for the lifetime of the machine
(20_memory.md R32).
-/
namespace Sys2Proof.Machine

/-- The parameters of this hardware (R6). DEPTH_MIN and DEPTH_MAX are the literal pair, not the
formula's (90_conflicts.md C1, log 19). PREV_SW_RESET and BRIGHT_RESET are the defaults of the spec's
decisions D4 and D8, DESIGN CHOICE (log 4 and log 5). -/
def params : Params where
  tableSize := 256
  rateMin := 1000
  rateMax := 10000
  effectNum := 2
  effectDen := 5
  depthMin := 4915
  depthMax := 11467
  neutral := 8192#14
  status := 0xE0#8
  rawMax := 1023
  srcMin := -32768
  srcMax := 32767
  levelMax := 255
  prevSwReset := 1#1
  brightReset := 0#8

/-- The default table of 92_eei_decisions.md D5, indices 0 to 127. -/
def defaultRise : List Int :=
  [
    0, 3, 6, 9, 12, 16, 19, 22, 25, 28, 31, 34, 37, 40, 43, 46,
    49, 51, 54, 57, 60, 63, 65, 68, 71, 73, 76, 78, 81, 83, 85, 88] ++ [
    90, 92, 94, 96, 98, 100, 102, 104, 106, 107, 109, 111, 112, 113, 115, 116,
    117, 118, 120, 121, 122, 122, 123, 124, 125, 125, 126, 126, 126, 127, 127, 127] ++ [
    127, 127, 127, 127, 126, 126, 126, 125, 125, 124, 123, 122, 122, 121, 120, 118,
    117, 116, 115, 113, 112, 111, 109, 107, 106, 104, 102, 100, 98, 96, 94, 92] ++ [
    90, 88, 85, 83, 81, 78, 76, 73, 71, 68, 65, 63, 60, 57, 54, 51,
    49, 46, 43, 40, 37, 34, 31, 28, 25, 22, 19, 16, 12, 9, 6, 3]

/-- The default table of 92_eei_decisions.md D5, indices 128 to 255. -/
def defaultFall : List Int :=
  [
    0, -3, -6, -9, -12, -16, -19, -22, -25, -28, -31, -34, -37, -40, -43, -46,
    -49, -51, -54, -57, -60, -63, -65, -68, -71, -73, -76, -78, -81, -83, -85, -88] ++ [
    -90, -92, -94, -96, -98, -100, -102, -104, -106, -107, -109, -111, -112, -113, -115, -116,
    -117, -118, -120, -121, -122, -122, -123, -124, -125, -125, -126, -126, -126, -127, -127, -127] ++ [
    -127, -127, -127, -127, -126, -126, -126, -125, -125, -124, -123, -122, -122, -121, -120, -118,
    -117, -116, -115, -113, -112, -111, -109, -107, -106, -104, -102, -100, -98, -96, -94, -92] ++ [
    -90, -88, -85, -83, -81, -78, -76, -73, -71, -68, -65, -63, -60, -57, -54, -51,
    -49, -46, -43, -40, -37, -34, -31, -28, -25, -22, -19, -16, -12, -9, -6, -3]

/-- The default WAVE, which the spec gives for its test vectors alone (92_eei_decisions.md D5): "results
proved for the default table hold for that table only" (91_not_in_source.md N1). No operation takes it. -/
def defaultWave : Wave := fun a => BitVec.ofInt 8 (((defaultRise ++ defaultFall)[a.toNat]?).getD 0)

/-- WAVE of this hardware, a constant that no state holds and no operation can change (R32): entry 0 is 0
(R7, "sample(0) = 0"), and every other entry is a free value, because the source lists none (R34, N1;
log 6). -/
def wave : Wave := fun a => if a = 0#8 then 0#8 else Config.waveEntry a

end Sys2Proof.Machine
end

