-- ==== Sys2Proof/Machine/State.lean ====
section
/-!
DEFINITION. The state of the block (10_state.md), as plain data: the three registers, the
observations TX and trace, the transients of an iteration, the input records still to be sampled and
the model's own fields; the reasons a step can stop; and the state after reset (R30). There is no memory
in it: the block's one addressable store is the waveform ROM, which is a configuration value and not
state (20_memory.md R31, R32), `wave` of Machine/Params.lean.
-/
namespace Sys2Proof.Machine

/-- The output record of a whole-loop iteration (R25). -/
structure LoopOut where
  /-- no byte, or the three bytes of one message -/
  tx : List Byte
  /-- the value of BRIGHT after the gate -/
  bright : Byte
  /-- the Period waited, microseconds -/
  waitUs : Period
deriving DecidableEq, Repr

/-- The output record of a core-only iteration (R26). -/
structure CoreOut where
  /-- no byte, or the three bytes of one message -/
  tx : List Byte
deriving DecidableEq, Repr

/-- The transients of one iteration (R24), none of which survives it, and the fields of the output
record under construction. The last four fields are the model's own (log 24). -/
@[ext]
structure Wires where
  /-- raw analog sample for Period (R89) -/
  rawRate : RawSample
  /-- raw analog sample for Depth (R90) -/
  rawDepth : RawSample
  /-- sampled switch level (R74) -/
  sw : Level
  /-- Period, microseconds (R89) -/
  period : Period
  /-- Depth (R90) -/
  depth : Depth
  /-- waveform entry at PHASE, signed (R59) -/
  sample : Sample
  /-- depth times sample, signed (R66) -/
  raw : Product
  /-- computed ControlValue (R68) -/
  cv : ControlValue
  /-- the value the gate hands to the encoder, when any (R75) -/
  outCv : Option ControlValue
  /-- the low septet of the encoded value (R84) -/
  low : Septet
  /-- the high septet of the encoded value (R84) -/
  high : Septet
  /-- model's own: result of MAP executed as an operation of its own (R65) -/
  mapResult : Int
  /-- model's own: result of FEEDBACK executed as an operation of its own (R92) -/
  brightness : Byte
  /-- model's own: the field wait_us of the output record (R94) -/
  waitUs : Period
  /-- model's own: the bytes emitted in this iteration, the field tx of the output record (R98) -/
  msg : List Byte
deriving DecidableEq, Repr

/-- The transients between iterations. No iteration reads one that it has not written; the values are
the model's (DESIGN CHOICE, log 8). -/
def Wires.idle : Wires where
  rawRate := 0#10
  rawDepth := 0#10
  sw := 0#1
  period := 0#14
  depth := 0#8
  sample := 0#8
  raw := 0#16
  cv := 0#14
  outCv := none
  low := 0#7
  high := 0#7
  mapResult := 0
  brightness := 0#8
  waitUs := 0#14
  msg := []

/-- The state of the block. -/
@[ext]
structure State where
  /-- PHASE (R14) -/
  phase : Phase
  /-- PREV_SW (R15) -/
  prevSw : Level
  /-- BRIGHT (R19) -/
  bright : Byte
  /-- TX, every byte emitted since reset, oldest first (R23) -/
  tx : List Byte
  /-- the output records of the whole-loop iterations since reset, oldest first (R99) -/
  trace : List LoopOut
  /-- the output records of the core-only iterations since reset, oldest first (R100) -/
  coreTrace : List CoreOut
  /-- the transients (R24) -/
  wires : Wires
  /-- the whole-loop input records still to be sampled, next first (R25, log 2) -/
  inputs : List LoopIn
  /-- the core-only input records still to be sampled, next first (R26, log 2) -/
  coreInputs : List CoreIn
  /-- model's own: counts iterations, to index the free input records (log 3) -/
  iteration : Nat
  /-- model's own: the bytes of an operation placed from outside for the next step (log 1) -/
  slot : List Byte
deriving DecidableEq, Repr

/-- Faults. There is none: "it has no fault outcome and no stuck outcome" (60_exceptions.md R106,
R108), so the type has no constructor and no step can answer with one (log 21). -/
inductive Fault where
deriving DecidableEq, Repr

/-- Refusals. -/
inductive Refusal where
  /-- raised by an arm of `exec` whose operation has no meaning in the model; no arm does. Safe. -/
  | notModelled (mnemonic : String)
  /-- raised by `step` when the bytes placed in `slot` encode no operation; no iteration places any
  (log 1). Safe. -/
  | notAnEncoding (why : DecodeError)
deriving DecidableEq, Repr

/-- The state after reset for given values of the OPEN parameters PREV_SW_RESET and BRIGHT_RESET
(R30, 70_reset_and_hazards.md R122): PHASE 0, TX empty, nothing listed in the inputs. WAVE is
no state and is not reset (R30, R32). -/
def State.resetWith (prevSwReset : Level) (brightReset : Byte) : State where
  phase := 0#8
  prevSw := prevSwReset
  bright := brightReset
  tx := []
  trace := []
  coreTrace := []
  wires := Wires.idle
  inputs := []
  coreInputs := []
  iteration := 0
  slot := []

/-- The state after reset (R30), with the default reset values of PREV_SW and BRIGHT (DESIGN CHOICE,
log 4 and log 5). -/
def State.reset : State := State.resetWith params.prevSwReset params.brightReset

end Sys2Proof.Machine
end

