-- ==== Sys2Proof/Machine/Ops.lean ====
section
/-!
DEFINITION. The named operations over registers, ROM, outbound stream and input ports, and the
integer primitives of 00_scope.md R9.

TAKING AN EXCEPTION and returning from one have no operation here: the block has "no exception,
interrupt or trap mechanism of any kind: no cause register, no vector, no handler, no saved state, no
return operation" (60_exceptions.md R106, R113, R114).
-/
namespace Sys2Proof.Machine

/-! ### Register and field writes, one per field an operation writes -/

/-- `PHASE <- v` (R9, R14). -/
def State.setPhase (s : State) (v : Phase) : State := { s with phase := v }

/-- `PREV_SW <- v` (R9, R15). -/
def State.setPrevSw (s : State) (v : Level) : State := { s with prevSw := v }

/-- `BRIGHT <- v` (R9, R19). -/
def State.setBright (s : State) (v : Byte) : State := { s with bright := v }

/-- Writes the transients (R24). -/
def State.setWires (s : State) (w : Wires) : State := { s with wires := w }

/-- Writes the operation slot (log 1). -/
def State.setSlot (s : State) (bs : List Byte) : State := { s with slot := bs }

/-- `emit(b)`: appends one byte to TX (R9, R23), and to the tx field of this iteration's record (R98). -/
def State.emit (s : State) (b : Byte) : State :=
  { s with tx := s.tx ++ [b], wires := { s.wires with msg := s.wires.msg ++ [b] } }

/-- Appends a whole-loop output record to the trace (R99). -/
def State.record (s : State) (o : LoopOut) : State := { s with trace := s.trace ++ [o] }

/-- Appends a core-only output record to the core trace (R100). -/
def State.recordCore (s : State) (o : CoreOut) : State := { s with coreTrace := s.coreTrace ++ [o] }

/-- The whole-loop iteration has used its input record (R27). -/
def State.popInput (s : State) : State :=
  { s with inputs := s.inputs.tail, iteration := s.iteration + 1 }

/-- The core-only iteration has used its input record (R27). -/
def State.popCoreInput (s : State) : State :=
  { s with coreInputs := s.coreInputs.tail, iteration := s.iteration + 1 }

/-! ### The waveform ROM (20_memory.md) -/

/-- `MemRead(addr, 1)` (R9, R33): the 8-bit pattern of WAVE[addr], "a pure function of addr". The index
is 8 bits wide, so every address it can present is in the map (R36, R38; log 7). There is no `MemWrite`
(R32). -/
def memRead (w : Wave) (a : Phase) : Byte := w a

/-! ### Input ports (R25, R26, R27) -/

/-- The whole-loop input record that will be sampled `k` iterations from now: the one listed, and a
free one when none is (R11, D18; log 2). -/
def State.loopRecord (s : State) (k : Nat) : LoopIn :=
  (s.inputs[k]?).getD (Config.loopIn (s.iteration + k))

/-- The core-only input record that will be sampled `k` core-only iterations from now. -/
def State.coreRecord (s : State) (k : Nat) : CoreIn :=
  (s.coreInputs[k]?).getD (Config.coreIn (s.iteration + k))

/-- The input record of this whole-loop iteration. -/
def State.currentIn (s : State) : LoopIn := s.loopRecord 0

/-- The input record of this core-only iteration. -/
def State.currentCoreIn (s : State) : CoreIn := s.coreRecord 0

/-! ### Integer primitives (00_scope.md R9) and the affine rescale (41_modulator.md R65) -/

/-- `tdiv(a, b)` for b > 0: the quotient truncated toward zero, floor(a / b) when a is not negative and
-floor(-a / b) when it is (R9; log 17). -/
def tdiv (a b : Int) : Int := if 0 ≤ a then a / b else -(-a / b)

/-- MAP (R65): out_min + tdiv((x - in_min) * (out_max - out_min), in_max - in_min), the product formed
exactly. R65 requires in_max > in_min; without it the result is a free value (log 10). -/
def mapInt (x inMin inMax outMin outMax : Int) : Int :=
  if inMin < inMax then outMin + tdiv ((x - inMin) * (outMax - outMin)) (inMax - inMin)
  else Config.mapOutside x inMin inMax outMin outMax

/-! ### The operation slot and reset -/

/-- The bytes the next step decodes: those placed in `slot`, and the gate selector when none is (R46,
log 1). -/
def State.fetchBytes (s : State) : List Byte :=
  match s.slot with
  | [] => [selectorByte (selectorOf s.prevSw s.currentIn.sw)]
  | b :: bs => b :: bs

/-- Places a selector where the next iteration decodes it: its bit 1 in PREV_SW, its bit 0 as the
switch level of the next input record. Where no record is listed the analog samples are those of the
stimulus notation's defaults, rr = 0 and rd = 1023 (30_encoding.md R56). -/
def State.placeSelector (s : State) (sel : Selector) : State :=
  { s with
    prevSw := Selector.prev sel
    slot := []
    inputs :=
      match s.inputs with
      | [] => [{ rawRate := 0#10, rawDepth := 1023#10, sw := Selector.cur sel }]
      | r :: rs => { r with sw := Selector.cur sel } :: rs }

/-- Places the bytes of an operation for the next step: a selector byte as above, any others in
`slot` (log 1). -/
def State.placeBytes (s : State) (bytes : List Byte) : State :=
  match decode bytes with
  | .ok (.gateMod prev) => s.placeSelector (selectorOf prev Level.low)
  | .ok .gateNeutral => s.placeSelector (selectorOf Level.low Level.high)
  | .ok .gateIdle => s.placeSelector (selectorOf Level.high Level.high)
  | .ok _ => s.setSlot bytes
  | .error _ => s.setSlot bytes

/-- Warm reset (70_reset_and_hazards.md R124): back to the state of R30, a new run with an empty TX.
The environment's records go on where they stood (log 16). -/
def State.warmReset (s : State) (prevSwReset : Level) (brightReset : Byte) : State :=
  { State.resetWith prevSwReset brightReset with
    inputs := s.inputs
    coreInputs := s.coreInputs
    iteration := s.iteration }

end Sys2Proof.Machine
end

