-- ==== Sys2Proof/Machine/Operands.lean ====
section
/-!
DEFINITION. The operand forms and the combinational functions of the block: how each unit's result is
computed from its operands, as a function of values (41_modulator.md, 43_encoder.md,
44_boundary_units.md). All arithmetic is on exact integers (R71).
-/
namespace Sys2Proof.Machine

/-- `zext_N(v)`: an N-bit pattern read as unsigned (R9). -/
def zext {n : Nat} (v : BitVec n) : Int := v.toNat

/-- `sext_N(v)`: an N-bit pattern read as signed two's complement (R9; log 18). -/
def sext {n : Nat} (v : BitVec n) : Int := v.toInt

/-- READ_PERIOD's result: MAP(raw_rate, 0, 1023, RATE_MIN, RATE_MAX) (R89). -/
def periodOf (p : Params) (rawRate : RawSample) : Period :=
  BitVec.ofInt 14 (mapInt (zext rawRate) 0 p.rawMax p.rateMin p.rateMax)

/-- READ_DEPTH's result: MAP(raw_depth, 0, 1023, 0, 255) (R90). -/
def depthOf (p : Params) (rawDepth : RawSample) : Depth :=
  BitVec.ofInt 8 (mapInt (zext rawDepth) 0 p.rawMax 0 p.levelMax)

/-- MULT's result: depth (unsigned) times sample (signed), exact in 16 signed bits (R66). -/
def productOf (depth : Depth) (sample : Sample) : Product :=
  BitVec.ofInt 16 (zext depth * sext sample)

/-- COMPUTE's map: MAP(raw, -32768, 32767, DEPTH_MIN, DEPTH_MAX) (R68). -/
def controlOf (p : Params) (raw : Product) : ControlValue :=
  BitVec.ofInt 14 (mapInt (sext raw) p.srcMin p.srcMax p.depthMin p.depthMax)

/-- FEEDBACK's result: MAP(cv, DEPTH_MIN, DEPTH_MAX, 0, 255) for cv in [DEPTH_MIN, DEPTH_MAX] (R92).
Outside that range R92 states no result and the value is free (log 9). -/
def brightnessOf (p : Params) (cv : ControlValue) : Byte :=
  if p.depthMin ≤ zext cv ∧ zext cv ≤ p.depthMax then
    BitVec.ofInt 8 (mapInt (zext cv) p.depthMin p.depthMax 0 p.levelMax)
  else Config.feedbackOutside cv

/-- A septet zero-extended to a byte (R49, R84). -/
def septetByte (x : Septet) : Byte := x.zeroExtend 8

end Sys2Proof.Machine
end

