-- ==== Sys2Proof/Machine/Boundary.lean ====
section
/-!
DEFINITION. READ_PERIOD, READ_DEPTH, FEEDBACK and WAIT: the boundary units (44_boundary_units.md).
-/
namespace Sys2Proof.Machine

/-- READ_PERIOD (R89): takes the raw rate sample of the input record and maps it to the Period. -/
def readPeriod (s : State) : State :=
  s.setWires { s.wires with
    rawRate := s.currentIn.rawRate
    period := periodOf params s.currentIn.rawRate }

/-- READ_DEPTH (R90): takes the raw depth sample of the input record and maps it to the Depth. -/
def readDepth (s : State) : State :=
  s.setWires { s.wires with
    rawDepth := s.currentIn.rawDepth
    depth := depthOf params s.currentIn.rawDepth }

/-- FEEDBACK (R92) of the computed ControlValue. "State written: none by FEEDBACK itself". -/
def feedback (s : State) : State :=
  s.setWires { s.wires with brightness := brightnessOf params s.wires.cv }

/-- WAIT (R94): no effect on state in the untimed model but for the output field wait_us (log 15). -/
def wait (s : State) : State := s.setWires { s.wires with waitUs := s.wires.period }

/-- READ_PERIOD as an operation. -/
def execReadPeriod (s : State) : Host.Outcome State Fault Refusal := .next (readPeriod s)

/-- READ_DEPTH as an operation. -/
def execReadDepth (s : State) : Host.Outcome State Fault Refusal := .next (readDepth s)

/-- FEEDBACK as an operation. -/
def execFeedback (s : State) : Host.Outcome State Fault Refusal := .next (feedback s)

/-- WAIT as an operation. -/
def execWait (s : State) : Host.Outcome State Fault Refusal := .next (wait s)

end Sys2Proof.Machine
end

