-- ==== Sys2Proof/Machine/Encoder.lean ====
section
/-!
DEFINITION. ENCODE: the 14-bit to 2x7-bit encoder with its status byte (43_encoder.md).
-/
namespace Sys2Proof.Machine

/-- ENCODE (R84): the septets low = v[6:0] and high = v[13:7], then emit(STATUS), emit(low),
emit(high), in that order. -/
def encodeValue (v : ControlValue) (s : State) : State :=
  (((s.setWires { s.wires with low := lowOf v, high := highOf v }).emit params.status).emit
    (septetByte (lowOf v))).emit (septetByte (highOf v))

/-- ENCODE as an operation. -/
def execEncode (v : ControlValue) (s : State) : Host.Outcome State Fault Refusal :=
  .next (encodeValue v s)

end Sys2Proof.Machine
end

