-- ==== Sys2Proof/Machine/Flags.lean ====
section
/-!
DEFINITION. The block has no condition codes and no operation writes a flag as a side effect
(10_state.md R20). What stands here in place of flag computations is the one test an iteration makes:
the gate's selection from the pair of levels (42_enable_gate.md R75).
-/
namespace Sys2Proof.Machine

/-- The gate action that this iteration's levels select: PREV_SW as it was before the iteration, and
the sampled level (R18, R75). -/
def State.gateSelection (s : State) : GateAction := gateAction (selectorOf s.prevSw s.wires.sw)

end Sys2Proof.Machine
end

