-- ==== Sys2Proof/Machine/Gate.lean ====
section
/-!
DEFINITION. SAMPLE_SW, the three gate actions and UPDATE_PREV: the enable-switch edge detector and
output gate (42_enable_gate.md).
-/
namespace Sys2Proof.Machine

/-- SAMPLE_SW (R74): takes the switch level of the input record, once. -/
def sampleSw (s : State) : State := s.setWires { s.wires with sw := s.currentIn.sw }

/-- The gate hands a value to the encoder: `out_cv = v`, ENCODE(out_cv) (R76, R77). -/
def sendValue (v : ControlValue) (s : State) : State :=
  encodeValue v (s.setWires { s.wires with outCv := some v })

/-- GATE.MOD (R76): out_cv = cv, ENCODE(out_cv), `BRIGHT <- FEEDBACK(cv)`. -/
def gateMod (s : State) : State :=
  (sendValue s.wires.cv (feedback s)).setBright (brightnessOf params s.wires.cv)

/-- GATE.NEUTRAL (R77): out_cv = NEUTRAL, ENCODE(8192), `BRIGHT <- 0`. -/
def gateNeutral (s : State) : State := (sendValue params.neutral s).setBright 0#8

/-- GATE.IDLE (R78): nothing. -/
def gateIdle (s : State) : State := s

/-- The gate (R75): exactly one action, selected by PREV_SW and sw. -/
def gate (s : State) : State :=
  match s.gateSelection with
  | .mod => gateMod s
  | .neutral => gateNeutral s
  | .idle => gateIdle s

/-- The gate of the core alone (R100): the same selection and messages, without FEEDBACK and BRIGHT. -/
def gateCore (s : State) : State :=
  match s.gateSelection with
  | .mod => sendValue s.wires.cv s
  | .neutral => sendValue params.neutral s
  | .idle => s

/-- UPDATE_PREV (R79): `PREV_SW <- sw`, whatever action the gate took. -/
def updatePrev (s : State) : State := s.setPrevSw s.wires.sw

/-- SAMPLE_SW as an operation. -/
def execSampleSw (s : State) : Host.Outcome State Fault Refusal := .next (sampleSw s)

/-- GATE.MOD as an operation (log 23). -/
def execGateMod (s : State) : Host.Outcome State Fault Refusal := .next (gateMod s)

/-- GATE.NEUTRAL as an operation (log 23). -/
def execGateNeutral (s : State) : Host.Outcome State Fault Refusal := .next (gateNeutral s)

/-- GATE.IDLE as an operation (log 23). -/
def execGateIdle (s : State) : Host.Outcome State Fault Refusal := .next (gateIdle s)

/-- UPDATE_PREV as an operation. -/
def execUpdatePrev (s : State) : Host.Outcome State Fault Refusal := .next (updatePrev s)

end Sys2Proof.Machine
end

