-- ==== Sys2Proof/Machine/Modulator.lean ====
section
/-!
DEFINITION. MULT, MAP and COMPUTE: the depth-modulated multiplier (41_modulator.md).
-/
namespace Sys2Proof.Machine

/-- MULT (R66): `raw = depth * sample`. -/
def mult (s : State) : State :=
  s.setWires { s.wires with raw := productOf s.wires.depth s.wires.sample }

/-- COMPUTE (R68): MULT, then the MAP of raw into [DEPTH_MIN, DEPTH_MAX]. -/
def compute (s : State) : State :=
  (mult s).setWires { (mult s).wires with cv := controlOf params (mult s).wires.raw }

/-- MULT as an operation. -/
def execMult (s : State) : Host.Outcome State Fault Refusal := .next (mult s)

/-- MAP as an operation (R65): its result is one integer. -/
def execMap (x inMin inMax outMin outMax : Int) (s : State) : Host.Outcome State Fault Refusal :=
  .next (s.setWires { s.wires with mapResult := mapInt x inMin inMax outMin outMax })

/-- COMPUTE as an operation. -/
def execCompute (s : State) : Host.Outcome State Fault Refusal := .next (compute s)

end Sys2Proof.Machine
end

