-- ==== Sys2Proof/Machine/Wavetable.lean ====
section
/-!
DEFINITION. LOOKUP and ADVANCE: the phase accumulator and the waveform table (40_wavetable_phase.md).
-/
namespace Sys2Proof.Machine

/-- LOOKUP (R59) in a given ROM: `sample = sext_8(MemRead(PHASE, 1))`; the transient holds the pattern. -/
def lookup (w : Wave) (s : State) : State :=
  s.setWires { s.wires with sample := memRead w s.phase }

/-- ADVANCE (R61): `PHASE <- (PHASE + 1) mod 256`, unconditionally (R62). -/
def advance (s : State) : State := s.setPhase (s.phase + 1#8)

/-- LOOKUP as an operation, in the ROM of this hardware (R32). -/
def execLookup (s : State) : Host.Outcome State Fault Refusal := .next (lookup wave s)

/-- ADVANCE as an operation. -/
def execAdvance (s : State) : Host.Outcome State Fault Refusal := .next (advance s)

end Sys2Proof.Machine
end

