-- ==== Sys2Proof/Machine/Iteration.lean ====
section
/-!
DEFINITION. ITERATE and ITERATE_CORE: the composition of the operations in the stage order of
45_iteration.md R96. The waveform ROM is an argument here, so that a claim can quantify over WAVE
(00_scope.md R6, 92_eei_decisions.md D5); the operations take `wave`.
-/
namespace Sys2Proof.Machine

/-- An iteration begins with no transient of an earlier one (R24). -/
def freshWires (s : State) : State := s.setWires Wires.idle

/-- The stages before the gate, in the order of R96: READ_PERIOD, READ_DEPTH, LOOKUP, COMPUTE (with
MULT and MAP), SAMPLE_SW. -/
def beforeGate (w : Wave) (s : State) : State :=
  sampleSw (compute (lookup w (readDepth (readPeriod (freshWires s)))))

/-- The output record of the iteration: its message, BRIGHT as just written or held, the Period (R98). -/
def recordOut (s : State) : State :=
  s.record { tx := s.wires.msg, bright := s.bright, waitUs := s.wires.waitUs }

/-- The stages after the gate: WAIT and the output record, then UPDATE_PREV and ADVANCE together
(R18, R96). The transients and the input record end with the iteration (R24, R27). -/
def afterGate (s : State) : State :=
  (freshWires (advance (updatePrev (recordOut (wait s))))).popInput

/-- ITERATE (R98): one iteration of the whole loop, the machine's step. -/
def iterate (w : Wave) (s : State) : State := afterGate (gate (beforeGate w s))

/-- The core takes depth from its input record (R100, `depth = in.depth`). -/
def takeCoreDepth (s : State) : State :=
  s.setWires { s.wires with depth := s.currentCoreIn.depth }

/-- The core takes the switch level from its input record (R74, R100). -/
def takeCoreSw (s : State) : State := s.setWires { s.wires with sw := s.currentCoreIn.sw }

/-- The stages of the core before its gate (R100). -/
def beforeGateCore (w : Wave) (s : State) : State :=
  takeCoreSw (compute (lookup w (takeCoreDepth (freshWires s))))

/-- The stages of the core after its gate (R100): the record `{ tx }`, UPDATE_PREV, ADVANCE. -/
def afterGateCore (s : State) : State :=
  (freshWires (advance (updatePrev (s.recordCore { tx := s.wires.msg })))).popCoreInput

/-- ITERATE_CORE (R100): R98 without READ_PERIOD, READ_DEPTH, FEEDBACK, BRIGHT and WAIT. -/
def iterateCore (w : Wave) (s : State) : State := afterGateCore (gateCore (beforeGateCore w s))

/-- ITERATE as an operation, in the ROM of this hardware (R32). -/
def execIterate (s : State) : Host.Outcome State Fault Refusal := .next (iterate wave s)

/-- ITERATE_CORE as an operation, in the ROM of this hardware (R32). -/
def execIterateCore (s : State) : Host.Outcome State Fault Refusal := .next (iterateCore wave s)

end Sys2Proof.Machine
end

