-- ==== Sys2Proof/Machine/Dispatch.lean ====
section
/-!
DEFINITION. The meaning of each operation, one arm per constructor.
-/
namespace Sys2Proof.Machine

def exec (i : Instr) (s : State) : Host.Outcome State Fault Refusal :=
  match i with
  | .gateMod _ => Sys2Proof.Machine.execGateMod s
  | .gateNeutral => Sys2Proof.Machine.execGateNeutral s
  | .gateIdle => Sys2Proof.Machine.execGateIdle s
  | .encode v => Sys2Proof.Machine.execEncode v s
  | .readPeriod => Sys2Proof.Machine.execReadPeriod s
  | .readDepth => Sys2Proof.Machine.execReadDepth s
  | .lookup => Sys2Proof.Machine.execLookup s
  | .mult => Sys2Proof.Machine.execMult s
  | .map x inMin inMax outMin outMax => Sys2Proof.Machine.execMap x inMin inMax outMin outMax s
  | .compute => Sys2Proof.Machine.execCompute s
  | .sampleSw => Sys2Proof.Machine.execSampleSw s
  | .feedback => Sys2Proof.Machine.execFeedback s
  | .wait => Sys2Proof.Machine.execWait s
  | .updatePrev => Sys2Proof.Machine.execUpdatePrev s
  | .advance => Sys2Proof.Machine.execAdvance s
  | .iterate => Sys2Proof.Machine.execIterate s
  | .iterateCore => Sys2Proof.Machine.execIterateCore s

end Sys2Proof.Machine
end

