-- ==== Sys2Proof/Machine/Step.lean ====
section
/-!
DEFINITION. The step: one whole iteration (00_scope.md R11), or the one operation whose bytes stand in
the slot (log 1).
-/
namespace Sys2Proof.Machine

/-- One step of the machine. With an empty slot, as in every state that reset and iterations reach, it
is one whole iteration (R11, R98), in which the gate selector is decoded (R46). -/
def step (s : State) : Host.Outcome State Fault Refusal :=
  match s.slot with
  | [] => exec .iterate s
  | _ :: _ =>
    match decode s.fetchBytes with
    | .ok i => exec i (s.setSlot [])
    | .error e => .refused (.notAnEncoding e)

/-- Places a word of opcode_table.json so that the very next step decodes and runs it: a gate selector
in PREV_SW and the next record's switch level, any other bytes in the slot (log 1). -/
def State.withFetchWord (s : State) (nbits w : Nat) : State := s.placeBytes (tableBytes nbits w)

end Sys2Proof.Machine
end

