-- ==== Sys2Proof/Safety.lean ====
section
/-!
DEFINITION. What a run must deliver and what a safe state is, in the terms the claims use. The
functions here restate the spec's closed formulas on plain numbers, apart from the machine's own
definitions, so that a claim compares the two.
-/
namespace Sys2Proof.Safety

open Sys2Proof.Machine

/-- The ControlValue of R68 with this hardware's constants:
4915 + floor((depth * sample + 32768) * 6552 / 65535). -/
def controlValue (depth : Nat) (sample : Int) : Nat :=
  (4915 + (depth * sample + 32768) * 6552 / 65535).toNat

/-- The Period of R89: 1000 + floor(raw * 9000 / 1023). -/
def period (raw : Nat) : Nat := 1000 + raw * 9000 / 1023

/-- The Depth of R90: floor(raw * 255 / 1023). -/
def depth (raw : Nat) : Nat := raw * 255 / 1023

/-- The brightness of R92: floor((cv - 4915) * 255 / 6552), for cv in [4915, 11467]. -/
def brightness (cv : Nat) : Nat := (cv - 4915) * 255 / 6552

/-- The message of a value (R48, R49): E0, v mod 128, v / 128. -/
def message (v : Nat) : List Byte := [0xE0#8, BitVec.ofNat 8 (v % 128), BitVec.ofNat 8 (v / 128)]

/-- What an iteration emits (R80): the modulated message while the level is active, the neutral message
E0 00 40 on the edge, nothing while it stays inactive. -/
def emitted (prev sw : Level) (cv : Nat) : List Byte :=
  if sw = Level.low then message cv
  else if prev = Level.low then [0xE0#8, 0x00#8, 0x40#8]
  else []

/-- The brightness an iteration leaves (R80). -/
def brightAfterGate (prev sw : Level) (cv : Nat) (held : Byte) : Byte :=
  if sw = Level.low then BitVec.ofNat 8 (brightness cv)
  else if prev = Level.low then 0#8
  else held

/-! ### A run of whole-loop iterations from a state, iteration by iteration, for a WAVE (R102) -/

/-- The switch level sampled in iteration `k` of a run from `s`. -/
def levelAt (s : State) (k : Nat) : Level := (s.loopRecord k).sw

/-- The previous level that iteration `k` sees: PREV_SW at the start of the run, and the sample of
iteration `k - 1` after it. -/
def levelBefore (s : State) : Nat → Level
  | 0 => s.prevSw
  | k + 1 => levelAt s k

/-- The ControlValue of iteration `k`: COMPUTE of that iteration's Depth and of the waveform entry at
the free-running phase. -/
def controlValueAt (w : Wave) (s : State) (k : Nat) : Nat :=
  controlValue (depth (s.loopRecord k).rawDepth.toNat)
    (memRead w (s.phase + BitVec.ofNat 8 k)).toInt

/-- BRIGHT after `n` iterations: the value written by the last one that was not idle (R102). -/
def brightAfter (w : Wave) (s : State) : Nat → Byte
  | 0 => s.bright
  | k + 1 => brightAfterGate (levelBefore s k) (levelAt s k) (controlValueAt w s k) (brightAfter w s k)

/-- The bytes that iteration `k` emits. -/
def emittedAt (w : Wave) (s : State) (k : Nat) : List Byte :=
  emitted (levelBefore s k) (levelAt s k) (controlValueAt w s k)

/-- The output record of iteration `k` (R25). -/
def recordAt (w : Wave) (s : State) (k : Nat) : LoopOut where
  tx := emittedAt w s k
  bright := brightAfter w s (k + 1)
  waitUs := BitVec.ofNat 14 (period (s.loopRecord k).rawRate.toNat)

/-- How many of the first `n` samples are active (R103). -/
def activeCount (s : State) : Nat → Nat
  | 0 => 0
  | k + 1 => activeCount s k + if levelAt s k = Level.low then 1 else 0

/-- How many of the first `n` samples are edges: inactive after active (R103). -/
def edgeCount (s : State) : Nat → Nat
  | 0 => 0
  | k + 1 =>
    edgeCount s k + if levelAt s k = Level.high ∧ levelBefore s k = Level.low then 1 else 0

/-- `n` executions of one operation, each from the state the one before it left. -/
def execMany (i : Instr) : Nat → State → Host.Outcome State Fault Refusal
  | 0, s => .next s
  | n + 1, s =>
    match exec i s with
    | .next t => execMany i n t
    | .fault r => .fault r
    | .refused r => .refused r

/-! ### Safe states -/

/-- The shape of the outbound stream (R50, R101): whole messages, a status byte at every third
position and data bytes with bit 7 clear between. -/
def framed (tx : List Byte) : Prop :=
  tx.length % 3 = 0 ∧
    ∀ k b, tx[k]? = some b → if k % 3 = 0 then b = 0xE0#8 else b.toNat < 128

/-- A record a whole-loop iteration may leave: no byte or one message, whose value lies in
[4927, 11428] (R51), and a Period in [1000, 10000] (R25, R89). -/
def legalRecord (o : LoopOut) : Prop :=
  (o.tx = [] ∨ ∃ v : Nat, 4927 ≤ v ∧ v ≤ 11428 ∧ o.tx = message v) ∧
    1000 ≤ o.waitUs.toNat ∧ o.waitUs.toNat ≤ 10000

/-- The invariant of the block between iterations: nothing is placed in the slot, no transient
survives (R24), TX is framed (R101) and is the concatenation of the records' messages (R99), every
record is legal. -/
structure Inv (s : State) : Prop where
  slotEmpty : s.slot = []
  wiresIdle : s.wires = Wires.idle
  txFramed : framed s.tx
  txIsTrace : s.tx = (s.trace.map LoopOut.tx).flatten
  recordsLegal : ∀ o ∈ s.trace, legalRecord o

/-- The brightness output is dark while the last sample was inactive, and never above 253 (R93; that
it holds at reset rests on BRIGHT_RESET = 0, log 5). -/
def DarkWhenOff (s : State) : Prop :=
  (s.prevSw = Level.high → s.bright = 0#8) ∧ s.bright.toNat ≤ 253

/-! ### D0's testable properties -/

/-- The nine testable properties of 45_iteration.md R105, in its order, for a WAVE `w`, each said of the
machine's own definitions. -/
structure TestableProperties (w : Wave) : Prop where
  /-- (1) Every sample lies in [-128, 127], and sample(0) = 0 (R7). -/
  sampleRange : (∀ a : Phase, -128 ≤ (memRead w a).toInt ∧ (memRead w a).toInt ≤ 127) ∧
    (memRead w 0#8).toInt = 0
  /-- (2) The phase sequence of a run has period exactly 256 (R63). -/
  phasePeriod : ∀ (n : Nat) (s : State), ((iterate w)^[n] s).phase = s.phase ↔ n % 256 = 0
  /-- (3) COMPUTE stays within [4915, 11467] (R68). -/
  computeBounds : ∀ (d : Depth) (x : Sample),
    4915 ≤ (controlOf params (productOf d x)).toNat ∧
      (controlOf params (productOf d x)).toNat ≤ 11467
  /-- (4) COMPUTE(0, s) is 8191, within 1 of 8192 (R69). -/
  zeroDepth : ∀ x : Sample, (controlOf params (productOf 0#8 x)).toNat = 8191
  /-- (5) COMPUTE(255, 127) and COMPUTE(255, -128) are 11428 and 4927; D0's "within 1 unit" of the bounds
  is false (R70, 90_conflicts.md C2). -/
  extremes : (controlOf params (productOf 255#8 127#8)).toNat = 11428 ∧
    (controlOf params (productOf 255#8 (BitVec.ofInt 8 (-128)))).toNat = 4927
  /-- (6) The edge emits one neutral message and sets the brightness to 0 (R77, R103). -/
  edge : ∀ s : State, s.prevSw = Level.low → s.currentIn.sw = Level.high →
    (iterate w s).tx = s.tx ++ message 8192 ∧ (iterate w s).bright = 0#8
  /-- (7) An active iteration emits one message, from which the receiver reconstructs the computed value
  (R76, R87). -/
  activeMessage : ∀ s : State, s.currentIn.sw = Level.low →
    ∃ v : ControlValue,
      v.toNat = controlValue (depth s.currentIn.rawDepth.toNat) (memRead w s.phase).toInt ∧
      (iterate w s).tx = s.tx ++ message v.toNat ∧ parseTx (message v.toNat) = some [v]
  /-- (8) The three worked encodings (R85). -/
  encodings : ∀ s : State,
    (encodeValue 8192#14 s).tx = s.tx ++ [0xE0#8, 0x00#8, 0x40#8] ∧
    (encodeValue 0#14 s).tx = s.tx ++ [0xE0#8, 0x00#8, 0x00#8] ∧
    (encodeValue 16383#14 s).tx = s.tx ++ [0xE0#8, 0x7F#8, 0x7F#8]
  /-- (9) An inactive iteration without an edge emits nothing (R78). -/
  silence : ∀ s : State, s.prevSw = Level.high → s.currentIn.sw = Level.high →
    (iterate w s).tx = s.tx

end Sys2Proof.Safety
end

