-- ==== Sys2Proof/WellFormed.lean ====
section
/-!
DEFINITION. Which operations, which parameters and which waveform ROMs are well formed. The types already bound every
operand that has a width; what is left is the premise of MAP (41_modulator.md R65) and the
constraints on the parameters (00_scope.md R7).
-/
namespace Sys2Proof

/-- An operation is well formed when its operands are ones its rule admits: MAP needs
in_max > in_min (R65), and every other operand is bounded by its type. -/
def Instr.wf (i : Instr) : Bool :=
  match i with
  | .map _ inMin inMax _ _ => decide (inMin < inMax)
  | .gateMod _ => true
  | .gateNeutral => true
  | .gateIdle => true
  | .encode _ => true
  | .readPeriod => true
  | .readDepth => true
  | .lookup => true
  | .mult => true
  | .compute => true
  | .sampleSw => true
  | .feedback => true
  | .wait => true
  | .updatePrev => true
  | .advance => true
  | .iterate => true
  | .iterateCore => true

/-- The constraint of R7 on the contents of WAVE: WAVE[0] = 0. That every entry lies in [-128, 127]
holds by the width of an entry. -/
def Wave.wf (w : Wave) : Bool := decide (w 0#8 = 0#8)

/-- The constraints of R7 on the other parameters. -/
def Params.wf (p : Params) : Bool :=
  decide (p.tableSize = 256) && decide (0 ≤ p.depthMin) && decide (p.depthMin ≤ p.neutral.toNat)
    && decide ((p.neutral.toNat : Int) ≤ p.depthMax) && decide (p.depthMax ≤ 16383)
    && decide (p.rateMin ≤ p.rateMax)

end Sys2Proof
end

