-- ==== Sys2Proof/Certificates/Slice0/Obligations.lean ====
section
/-!
DEFINITION. The statements for the provers. Each docstring says which rule of the spec a statement
formalises; formulas are written on plain numbers, apart from the machine's own functions, or in the
terms of Sys2Proof/Safety.lean.
-/

open Sys2Proof Sys2Proof.Machine Sys2Proof.Safety

/-! ### Encoding -/

/-- Decoding the bytes of any operation that has an encoding gives the operation back, with every
operand at every value (30_encoding.md R46 to R49). -/
def Obligations.DecodeOfEncodeIsTheOperation : Prop :=
  ∀ (i : Instr) (bytes : List Byte), Sys2Proof.encode i = some bytes → decode bytes = .ok i

/-- Bytes that decode are exactly the bytes of the operation they decode to: no bit of a selector or
of a message is dropped, and nothing but the encodings of R47 and R48 decodes. What decodes is well
formed. -/
def Obligations.EncodeOfDecodeIsTheBytes : Prop :=
  ∀ (i : Instr) (bytes : List Byte), decode bytes = .ok i →
    Sys2Proof.encode i = some bytes ∧ i.wf = true

/-- The operations of format ALWAYS have no encoding, and every operation of GATE2 and MSG24 has one
(R53, R54). -/
def Obligations.OnlyGateAndMessageHaveEncodings : Prop :=
  ∀ i : Instr, (Sys2Proof.encode i).isSome = true ↔
    (∃ prev, i = .gateMod prev) ∨ i = .gateNeutral ∨ i = .gateIdle ∨ ∃ v, i = .encode v

/-- The receiver reads back every value sent (R52, R54, R87): parsing the concatenation of any messages
gives their values in order. -/
def Obligations.ReceiverReadsTheValuesSent : Prop :=
  ∀ vs : List ControlValue,
    parseTx (vs.flatMap fun v => message v.toNat) = some vs

/-- A few words written out from the spec's encodings decode to their operations: the four selectors of
R47, the three worked messages of R85, and the message E0 16 43 of R84. Words with a bit outside an
encoding are refused: a third selector bit, bit 7 of a data byte, another status byte. -/
def Obligations.WrittenOutWordsDecode : Prop :=
  decodeTableWord 8 0b00 = some (.gateMod Level.low) ∧
  decodeTableWord 8 0b10 = some (.gateMod Level.high) ∧
  decodeTableWord 8 0b01 = some .gateNeutral ∧
  decodeTableWord 8 0b11 = some .gateIdle ∧
  decodeTableWord 24 0xE00000 = some (.encode 0#14) ∧
  decodeTableWord 24 0xE00040 = some (.encode 8192#14) ∧
  decodeTableWord 24 0xE07F7F = some (.encode 16383#14) ∧
  decodeTableWord 24 0xE01643 = some (.encode 8598#14) ∧
  decodeTableWord 8 0b100 = none ∧
  decodeTableWord 24 0xE08000 = none ∧
  decodeTableWord 24 0xE00080 = none ∧
  decodeTableWord 24 0xF00000 = none

/-- The selector map is total, by match and mask (R47): cur = 0 is GATE.MOD, prev = 0 with cur = 1 is
GATE.NEUTRAL, both 1 is GATE.IDLE. -/
def Obligations.SelectorMapIsTotal : Prop :=
  ∀ prev cur : Level,
    (cur = 0#1 → gateAction (selectorOf prev cur) = .mod) ∧
    (prev = 0#1 ∧ cur = 1#1 → gateAction (selectorOf prev cur) = .neutral) ∧
    (prev = 1#1 ∧ cur = 1#1 → gateAction (selectorOf prev cur) = .idle)

/-- Field assembly (R49): low = v & 0x7F, high = (v >> 7) & 0x7F, and the receiver's
(high << 7) | low is v again; the mask in high removes nothing; the septets are zero-extended to
bytes. -/
def Obligations.SeptetsAreTheBitFields : Prop :=
  ∀ v : ControlValue,
    (lowOf v).toNat = v.toNat &&& 0x7F ∧
    (highOf v).toNat = (v.toNat >>> 7) &&& 0x7F ∧
    v.toNat >>> 7 ≤ 127 ∧
    ((highOf v).toNat <<< 7) ||| (lowOf v).toNat = v.toNat ∧
    valueOf (lowOf v) (highOf v) = v ∧
    (septetByte (lowOf v)).toNat = (lowOf v).toNat ∧
    (septetByte (highOf v)).toNat = (highOf v).toNat

/-! ### The operations, one result statement each: the whole next state -/

/-- READ_PERIOD (R89): period = 1000 + floor(raw_rate * 9000 / 1023), in [1000, 10000]; a larger raw
sample gives a longer Period; nothing else changes. -/
def Obligations.ReadPeriodResult : Prop :=
  ∀ s : State, ∃ t, exec .readPeriod s = .next t ∧
    t.wires.period.toNat = 1000 + s.currentIn.rawRate.toNat * 9000 / 1023 ∧
    1000 ≤ t.wires.period.toNat ∧ t.wires.period.toNat ≤ 10000 ∧
    t = { s with wires := { s.wires with
      rawRate := s.currentIn.rawRate, period := t.wires.period } } ∧
    ∀ s' t' : State, exec .readPeriod s' = .next t' →
      s.currentIn.rawRate.toNat < s'.currentIn.rawRate.toNat →
      t.wires.period.toNat < t'.wires.period.toNat

/-- READ_DEPTH (R90): depth = floor(raw_depth * 255 / 1023), in [0, 255]; 255 is reached only by
raw_depth = 1023; nothing else changes. -/
def Obligations.ReadDepthResult : Prop :=
  ∀ s : State, ∃ t, exec .readDepth s = .next t ∧
    t.wires.depth.toNat = s.currentIn.rawDepth.toNat * 255 / 1023 ∧
    (t.wires.depth.toNat = 255 ↔ s.currentIn.rawDepth.toNat = 1023) ∧
    t = { s with wires := { s.wires with
      rawDepth := s.currentIn.rawDepth, depth := t.wires.depth } }

/-- LOOKUP (R59): sample = WAVE[PHASE], a signed value in [-128, 127]; with PHASE = 0 it is 0, in this
hardware's WAVE and in every legal one; no register changes. -/
def Obligations.LookupResult : Prop :=
  (∀ s : State, ∃ t, exec .lookup s = .next t ∧
    t = { s with wires := { s.wires with sample := memRead wave s.phase } } ∧
    -128 ≤ t.wires.sample.toInt ∧ t.wires.sample.toInt ≤ 127 ∧
    (s.phase = 0#8 → t.wires.sample.toInt = 0)) ∧
  (∀ (w : Wave) (s : State),
    lookup w s = { s with wires := { s.wires with sample := memRead w s.phase } } ∧
    -128 ≤ (memRead w s.phase).toInt ∧ (memRead w s.phase).toInt ≤ 127 ∧
    (s.phase = 0#8 → w.wf = true → (memRead w s.phase).toInt = 0))

/-- MULT (R66): raw = depth * sample exactly, in [-32640, 32385], so the 16-bit signed result never
wraps; 0 when either operand is; its sign is the sample's; nothing else changes. -/
def Obligations.MultResult : Prop :=
  ∀ s : State, ∃ t, exec .mult s = .next t ∧
    t.wires.raw.toInt = (s.wires.depth.toNat : Int) * s.wires.sample.toInt ∧
    -32640 ≤ t.wires.raw.toInt ∧ t.wires.raw.toInt ≤ 32385 ∧
    (s.wires.depth = 0#8 → t.wires.raw.toInt = 0) ∧
    (s.wires.sample = 0#8 → t.wires.raw.toInt = 0) ∧
    (s.wires.sample.toInt ≤ 0 → t.wires.raw.toInt ≤ 0) ∧
    (0 ≤ s.wires.sample.toInt → 0 ≤ t.wires.raw.toInt) ∧
    t = { s with wires := { s.wires with raw := t.wires.raw } }

/-- MAP (R65): for well-formed operands (in_max > in_min) out_min + the exact product divided and
truncated; it ends in a next state that changes nothing but the result. Two of its cases are choices.
Where the numerator is negative (as for x below in_min with out_max above out_min), the source does not
say which way its quotient is rounded (N10): truncation toward zero is the spec's own decision (R9, D7;
log 17, PRESUMED). Where in_max is not above in_min no result is stated, and it is a free value of the model
(log 10, DESIGN CHOICE). -/
def Obligations.MapResult : Prop :=
  ∀ (x inMin inMax outMin outMax : Int) (s : State), ∃ t,
    exec (.map x inMin inMax outMin outMax) s = .next t ∧
    ((Instr.map x inMin inMax outMin outMax).wf = true →
      t.wires.mapResult = outMin + Int.tdiv ((x - inMin) * (outMax - outMin)) (inMax - inMin)) ∧
    t = { s with wires := { s.wires with mapResult := t.wires.mapResult } }

/-- MAP keeps its bounds (R65): in_min goes to out_min and in_max to out_max exactly, and inside the
source range the result lies in [out_min, out_max] and does not decrease in x. -/
def Obligations.MapKeepsBounds : Prop :=
  ∀ inMin inMax outMin outMax : Int, inMin < inMax →
    mapInt inMin inMin inMax outMin outMax = outMin ∧
    mapInt inMax inMin inMax outMin outMax = outMax ∧
    (outMin ≤ outMax → ∀ x y : Int, inMin ≤ x → x ≤ y → y ≤ inMax →
      outMin ≤ mapInt x inMin inMax outMin outMax ∧
      mapInt x inMin inMax outMin outMax ≤ mapInt y inMin inMax outMin outMax ∧
      mapInt y inMin inMax outMin outMax ≤ outMax)

/-- COMPUTE (R68): raw = depth * sample and cv = 4915 + floor((raw + 32768) * 6552 / 65535), in
[4927, 11428] and so in [DEPTH_MIN, DEPTH_MAX]; nothing else changes. -/
def Obligations.ComputeResult : Prop :=
  ∀ s : State, ∃ t, exec .compute s = .next t ∧
    t.wires.raw.toInt = (s.wires.depth.toNat : Int) * s.wires.sample.toInt ∧
    (t.wires.cv.toNat : Int) = 4915 + (t.wires.raw.toInt + 32768) * 6552 / 65535 ∧
    4927 ≤ t.wires.cv.toNat ∧ t.wires.cv.toNat ≤ 11428 ∧
    t = { s with wires := { s.wires with raw := t.wires.raw, cv := t.wires.cv } }

/-- COMPUTE attains the ends of its range and does not decrease in raw (R68, R70); the bounds 4915 and
11467 themselves are reached by no operands. -/
def Obligations.ComputeRangeAndOrder : Prop :=
  (controlOf params (productOf 255#8 (BitVec.ofInt 8 (-128)))).toNat = 4927 ∧
  (controlOf params (productOf 255#8 127#8)).toNat = 11428 ∧
  (∀ d e : Depth, ∀ x y : Sample, (productOf d x).toInt ≤ (productOf e y).toInt →
    (controlOf params (productOf d x)).toNat ≤ (controlOf params (productOf e y)).toNat) ∧
  (∀ (d : Depth) (x : Sample), (controlOf params (productOf d x)).toNat ≠ 4915 ∧
    (controlOf params (productOf d x)).toNat ≠ 11467)

/-- Zero depth (R69): cv is 8191 for every sample; 8191 results exactly when raw is in [0, 9] and 8192
exactly when raw is in [10, 19]; raw = -1 gives 8190; the messages of 8191 and 8192 are E0 7F 3F and
E0 00 40. -/
def Obligations.ZeroDepthIsOneBelowNeutral : Prop :=
  (∀ (s t : State), s.wires.depth = 0#8 → exec .compute s = .next t → t.wires.cv = 8191#14) ∧
  (∀ raw : Product,
    ((controlOf params raw).toNat = 8191 ↔ 0 ≤ raw.toInt ∧ raw.toInt ≤ 9) ∧
    ((controlOf params raw).toNat = 8192 ↔ 10 ≤ raw.toInt ∧ raw.toInt ≤ 19) ∧
    (raw.toInt = -1 → (controlOf params raw).toNat = 8190)) ∧
  Sys2Proof.encode (.encode 8191#14) = some [0xE0#8, 0x7F#8, 0x3F#8] ∧
  Sys2Proof.encode (.encode 8192#14) = some [0xE0#8, 0x00#8, 0x40#8]

/-- The other lower bound (R73): with DEPTH_MIN 4916 in place of 4915, COMPUTE(0, s) is still 8191,
COMPUTE(255, 127) still 11428, COMPUTE(255, -128) is 4928 and COMPUTE(255, -127) is 4954. -/
def Obligations.OtherLowerBoundReading : Prop :=
  (∀ x : Sample, (controlOf { params with depthMin := 4916 } (productOf 0#8 x)).toNat = 8191) ∧
  (controlOf { params with depthMin := 4916 } (productOf 255#8 127#8)).toNat = 11428 ∧
  (controlOf { params with depthMin := 4916 } (productOf 255#8 (BitVec.ofInt 8 (-128)))).toNat
    = 4928 ∧
  (controlOf { params with depthMin := 4916 } (productOf 255#8 (BitVec.ofInt 8 (-127)))).toNat
    = 4954

/-- SAMPLE_SW (R74): the transient sw is the level of the iteration's input record; nothing else
changes. -/
def Obligations.SampleSwResult : Prop :=
  ∀ s : State, exec .sampleSw s =
    .next { s with wires := { s.wires with sw := s.currentIn.sw } }

/-- GATE.MOD (R76): out_cv = cv, the message of cv at the end of TX, and BRIGHT the brightness of cv.
For cv in [DEPTH_MIN, DEPTH_MAX] that is floor((cv - 4915) * 255 / 6552) (R92); for another cv, which
COMPUTE never produces, it is a free value (log 9) and the rest happens all the same. -/
def Obligations.GateModResult : Prop :=
  ∀ (prev : Level) (s : State), ∃ t, exec (.gateMod prev) s = .next t ∧
    (4915 ≤ s.wires.cv.toNat → s.wires.cv.toNat ≤ 11467 →
      t.bright.toNat = (s.wires.cv.toNat - 4915) * 255 / 6552) ∧
    t = { s with
      bright := t.bright
      tx := s.tx ++ message s.wires.cv.toNat
      wires := { s.wires with
        outCv := some s.wires.cv
        low := BitVec.ofNat 7 (s.wires.cv.toNat % 128)
        high := BitVec.ofNat 7 (s.wires.cv.toNat / 128)
        brightness := t.bright
        msg := s.wires.msg ++ message s.wires.cv.toNat } }

/-- GATE.NEUTRAL (R77): the computed value is discarded, out_cv = 8192, the bytes E0 00 40 at the end
of TX, and BRIGHT 0; nothing else changes. -/
def Obligations.GateNeutralResult : Prop :=
  ∀ s : State, exec .gateNeutral s = .next { s with
    bright := 0#8
    tx := s.tx ++ [0xE0#8, 0x00#8, 0x40#8]
    wires := { s.wires with
      outCv := some 8192#14
      low := 0#7
      high := 64#7
      msg := s.wires.msg ++ [0xE0#8, 0x00#8, 0x40#8] } }

/-- GATE.IDLE (R78): no message, BRIGHT keeps its value, no state is written. -/
def Obligations.GateIdleResult : Prop := ∀ s : State, exec .gateIdle s = .next s

/-- ENCODE (R84): emit(0xE0), emit(v & 0x7F), emit(v >> 7), in that order, at the end of TX; no
register changes. -/
def Obligations.EncodeResult : Prop :=
  ∀ (v : ControlValue) (s : State), exec (.encode v) s = .next { s with
    tx := s.tx ++ [0xE0#8, BitVec.ofNat 8 (v.toNat % 128), BitVec.ofNat 8 (v.toNat / 128)]
    wires := { s.wires with
      low := BitVec.ofNat 7 (v.toNat % 128)
      high := BitVec.ofNat 7 (v.toNat / 128)
      msg := s.wires.msg ++
        [0xE0#8, BitVec.ofNat 8 (v.toNat % 128), BitVec.ofNat 8 (v.toNat / 128)] } }

/-- The three worked encodings (R85), as the bytes ENCODE appends to TX. -/
def Obligations.WorkedEncodings : Prop :=
  ∀ s : State,
    (∃ t, exec (.encode 8192#14) s = .next t ∧ t.tx = s.tx ++ [0xE0#8, 0x00#8, 0x40#8]) ∧
    (∃ t, exec (.encode 0#14) s = .next t ∧ t.tx = s.tx ++ [0xE0#8, 0x00#8, 0x00#8]) ∧
    (∃ t, exec (.encode 16383#14) s = .next t ∧ t.tx = s.tx ++ [0xE0#8, 0x7F#8, 0x7F#8])

/-- ENCODE is injective and the receiver's (high << 7) | low inverts it (R87): the three bytes
appended to TX give the value back, and equal streams come from equal values. -/
def Obligations.EncodeIsInjective : Prop :=
  ∀ (v w : ControlValue) (s t u : State),
    exec (.encode v) s = .next t → exec (.encode w) s = .next u →
    (∃ b0 b1 b2 : Byte, t.tx = s.tx ++ [b0, b1, b2] ∧
      (b2.toNat <<< 7) ||| b1.toNat = v.toNat) ∧
    (t.tx = u.tx → v = w)

/-- FEEDBACK (R92): floor((cv - 4915) * 255 / 6552) for cv in [DEPTH_MIN, DEPTH_MAX], and a free value
otherwise (log 9); BRIGHT and every other register stay. -/
def Obligations.FeedbackResult : Prop :=
  ∀ s : State, ∃ t, exec .feedback s = .next t ∧
    (4915 ≤ s.wires.cv.toNat → s.wires.cv.toNat ≤ 11467 →
      t.wires.brightness.toNat = (s.wires.cv.toNat - 4915) * 255 / 6552) ∧
    t = { s with wires := { s.wires with brightness := t.wires.brightness } }

/-- Attained brightness (R93): the named values; at most 253 for every value the modulator produces,
which is never 4915 or 11467; 127 at zero depth. -/
def Obligations.AttainedBrightness : Prop :=
  (∀ (s t : State), exec .feedback s = .next t →
    (s.wires.cv = 4927#14 → t.wires.brightness = 0#8) ∧
    (s.wires.cv = 4953#14 → t.wires.brightness = 1#8) ∧
    (s.wires.cv = 8191#14 → t.wires.brightness = 127#8) ∧
    (s.wires.cv = 8192#14 → t.wires.brightness = 127#8) ∧
    (s.wires.cv = 11428#14 → t.wires.brightness = 253#8) ∧
    (s.wires.cv = 4915#14 → t.wires.brightness = 0#8) ∧
    (s.wires.cv = 11467#14 → t.wires.brightness = 255#8)) ∧
  (∀ (d : Depth) (x : Sample),
    (brightnessOf params (controlOf params (productOf d x))).toNat ≤ 253 ∧
    controlOf params (productOf d x) ≠ 4915#14 ∧
    controlOf params (productOf d x) ≠ 11467#14) ∧
  (∀ x : Sample, brightnessOf params (controlOf params (productOf 0#8 x)) = 127#8)

/-- WAIT (R94): no effect on state but for the output field wait_us = period. -/
def Obligations.WaitResult : Prop :=
  ∀ s : State, exec .wait s = .next { s with wires := { s.wires with waitUs := s.wires.period } }

/-- UPDATE_PREV (R79): PREV_SW is the sampled level, whatever action the gate took; nothing else
changes. -/
def Obligations.UpdatePrevResult : Prop :=
  ∀ s : State, exec .updatePrev s = .next { s with prevSw := s.wires.sw }

/-- ADVANCE (R61): PHASE becomes (PHASE + 1) mod 256, so that 255 becomes 0; nothing else changes. -/
def Obligations.AdvanceResult : Prop :=
  ∀ s : State, ∃ t, exec .advance s = .next t ∧
    t.phase.toNat = (s.phase.toNat + 1) % 256 ∧
    t = { s with phase := t.phase }

/-- k applications of ADVANCE from p leave (p + k) mod 256, and 256 of them the starting value (R63). -/
def Obligations.AdvanceHasPeriod256 : Prop :=
  (∀ (k : Nat) (s : State), ∃ t, execMany .advance k s = .next t ∧
    t.phase.toNat = (s.phase.toNat + k) % 256 ∧ t = { s with phase := t.phase }) ∧
  (∀ s : State, execMany .advance 256 s = .next s)

/-! ### Iterations -/

/-- ITERATE is the pseudocode of R98: with the input record r of the iteration and cv the value of
COMPUTE for its Depth and the sample at the old PHASE, the message and BRIGHT are those of the gate
table R80, the record is appended, PREV_SW is r.sw and PHASE is incremented modulo 256. Three clauses
are the model's own and no part of R98: the input record leaves the list inputs (log 2), the counter
iteration grows by one (log 3), and the fields that hold the transients are idle again (log 8; R24 says
only that none survives). It holds of the iteration in every WAVE w, and of the operation ITERATE in the
WAVE of this hardware. -/
def Obligations.IterateIsTheStepOfTheSpec : Prop :=
  ∀ (w : Wave) (s u : State) (r : LoopIn) (cv : Nat), r = s.currentIn →
    cv = controlValue (r.rawDepth.toNat * 255 / 1023) (memRead w s.phase).toInt →
    u = { s with
      phase := BitVec.ofNat 8 ((s.phase.toNat + 1) % 256)
      prevSw := r.sw
      bright := brightAfterGate s.prevSw r.sw cv s.bright
      tx := s.tx ++ emitted s.prevSw r.sw cv
      trace := s.trace ++ [{
        tx := emitted s.prevSw r.sw cv
        bright := brightAfterGate s.prevSw r.sw cv s.bright
        waitUs := BitVec.ofNat 14 (1000 + r.rawRate.toNat * 9000 / 1023) }]
      wires := Wires.idle
      inputs := s.inputs.tail
      iteration := s.iteration + 1 } →
    iterate w s = u ∧ (w = wave → exec .iterate s = .next u)

/-- ITERATE_CORE is the pseudocode of R100: the same with depth = in.depth, without BRIGHT, Period and
brightness. The clauses on the list coreInputs (log 2), the counter iteration (log 3) and the idle
transients (log 8), and that the core acts on the one State with a trace of its own (log 20), are the
model's own and no part of R100. It holds of the core's iteration in every WAVE w, and of the operation
ITERATE_CORE in the WAVE of this hardware. -/
def Obligations.IterateCoreIsTheCoreStepOfTheSpec : Prop :=
  ∀ (w : Wave) (s u : State) (r : CoreIn) (cv : Nat), r = s.currentCoreIn →
    cv = controlValue r.depth.toNat (memRead w s.phase).toInt →
    u = { s with
      phase := BitVec.ofNat 8 ((s.phase.toNat + 1) % 256)
      prevSw := r.sw
      tx := s.tx ++ emitted s.prevSw r.sw cv
      coreTrace := s.coreTrace ++ [{ tx := emitted s.prevSw r.sw cv }]
      wires := Wires.idle
      coreInputs := s.coreInputs.tail
      iteration := s.iteration + 1 } →
    iterateCore w s = u ∧ (w = wave → exec .iterateCore s = .next u)

/-- The whole loop and the core agree (R100): from states with equal PHASE, PREV_SW and TX, when
iteration k of the core is fed the Depth and the level of iteration k of the loop, then after every
number n of iterations in one and the same WAVE w TX, PHASE and PREV_SW are equal again; in the WAVE of
this hardware those iterations are the machine's run and n executions of ITERATE_CORE. -/
def Obligations.WholeLoopAndCoreAgree : Prop :=
  ∀ (w : Wave) (n : Nat) (s c : State),
    s.slot = [] → s.phase = c.phase → s.prevSw = c.prevSw → s.tx = c.tx →
    (∀ k < n, (c.coreRecord k).depth.toNat = (s.loopRecord k).rawDepth.toNat * 255 / 1023 ∧
      (c.coreRecord k).sw = (s.loopRecord k).sw) →
    ∃ t u, (iterate w)^[n] s = t ∧ (iterateCore w)^[n] c = u ∧
      t.tx = u.tx ∧ t.phase = u.phase ∧ t.prevSw = u.prevSw ∧
      (w = wave → Host.Core.run core n s = .next t ∧ execMany .iterateCore n c = .next u)

/-- The run of n iterations from any state between iterations, from reset in particular (R102 for the
registers, R98 and R99 for TX, the trace and a start state that is not reset's): PHASE has
advanced by n modulo 256, PREV_SW is the last sample, BRIGHT the value of the last iteration that was not
idle, and TX and the trace have grown by exactly the messages and records of the iterations,
each computed from that iteration's Depth and the waveform entry at the free-running phase. The clauses
on the list inputs (log 2) and the counter iteration (log 3) are the model's own and no part of R102. It
holds of n iterations in every WAVE w, and of the machine's run in the WAVE of this hardware. -/
def Obligations.RunDeliversTheTrace : Prop :=
  ∀ (w : Wave) (n : Nat) (s t : State), s.slot = [] → s.wires = Wires.idle →
    t = { s with
      phase := BitVec.ofNat 8 ((s.phase.toNat + n) % 256)
      prevSw := levelBefore s n
      bright := brightAfter w s n
      tx := s.tx ++ ((List.range n).map (emittedAt w s)).flatten
      trace := s.trace ++ (List.range n).map (recordAt w s)
      inputs := s.inputs.drop n
      iteration := s.iteration + n } →
    (iterate w)^[n] s = t ∧ (w = wave → Host.Core.run core n s = .next t)

/-- How many messages a run emits (R103): one for each active sample and one for each edge, and no
other, three bytes each; in n iterations in every WAVE w, and in the machine's run. -/
def Obligations.OneMessagePerActiveSampleAndPerEdge : Prop :=
  ∀ (w : Wave) (n : Nat) (s : State), s.slot = [] →
    ∃ t, (iterate w)^[n] s = t ∧ (w = wave → Host.Core.run core n s = .next t) ∧
      t.tx.length = s.tx.length + 3 * (activeCount s n + edgeCount s n)

/-- The gate's contract (R82): (a) with sw = 1 nothing but the neutral message is emitted, whatever
the analog samples; (b) on the edge exactly one message is emitted, carrying 8192, and the following
iteration emits none if its sw is 1; (c) with sw = 0 exactly one message is emitted, carrying that
iteration's cv; (d) with PREV_SW = 1 and sw = 1 nothing is emitted. It holds of the iteration in every
WAVE w, and of the machine's step. -/
def Obligations.GateContract : Prop :=
  ∀ (w : Wave) (s t : State), s.slot = [] → iterate w s = t →
    (w = wave → step s = .next t) ∧
    (s.currentIn.sw = Level.high → t.tx = s.tx ∨ t.tx = s.tx ++ [0xE0#8, 0x00#8, 0x40#8]) ∧
    (s.prevSw = Level.low → s.currentIn.sw = Level.high →
      t.tx = s.tx ++ [0xE0#8, 0x00#8, 0x40#8] ∧ t.bright = 0#8 ∧
      (t.currentIn.sw = Level.high → (iterate w t).tx = t.tx)) ∧
    (s.currentIn.sw = Level.low → t.tx = s.tx ++ message
      (controlValue (s.currentIn.rawDepth.toNat * 255 / 1023)
        (memRead w s.phase).toInt)) ∧
    (s.prevSw = Level.high → s.currentIn.sw = Level.high → t.tx = s.tx ∧ t.bright = s.bright)

/-- The boundary units are feed-forward (R95): the raw rate sample affects nothing but the Period in
the iteration's record, so two iterations that differ in it alone leave the same PHASE, PREV_SW,
BRIGHT and TX, and records with the same message and brightness; in every WAVE w. -/
def Obligations.RateAffectsOnlyTheWait : Prop :=
  ∀ (w : Wave) (s t u : State) (r : LoopIn) (rest : List LoopIn) (rate : RawSample),
    iterate w { s with inputs := r :: rest } = t →
    iterate w { s with inputs := { r with rawRate := rate } :: rest } = u →
    (w = wave → exec .iterate { s with inputs := r :: rest } = .next t ∧
      exec .iterate { s with inputs := { r with rawRate := rate } :: rest } = .next u) ∧
    t.phase = u.phase ∧ t.prevSw = u.prevSw ∧ t.bright = u.bright ∧ t.tx = u.tx ∧
    t.inputs = u.inputs ∧
    t.trace.map (fun o => (o.tx, o.bright)) = u.trace.map (fun o => (o.tx, o.bright))

/-- No transient of one iteration reaches another (R24): an iteration does the same whatever the
transients held before it, in every WAVE w. -/
def Obligations.TransientsDoNotReachTheNextIteration : Prop :=
  ∀ (w : Wave) (s : State) (old : Wires),
    iterate w { s with wires := old } = iterate w s ∧
    iterateCore w { s with wires := old } = iterateCore w s ∧
    exec .iterate { s with wires := old } = exec .iterate s ∧
    exec .iterateCore { s with wires := old } = exec .iterateCore s

/-! ### Steps -/

/-- Every operation completes, in every state (R97, R106): it answers a next state, never a fault and
never a refusal. -/
def Obligations.EveryOperationCompletes : Prop :=
  ∀ (i : Instr) (s : State), ∃ t, exec i s = .next t

/-- With nothing placed in the slot a step is one whole iteration (R11, R98). -/
def Obligations.StepIsOneIteration : Prop :=
  ∀ s : State, s.slot = [] → step s = exec .iterate s

/-- A step runs the decoded operation. With an empty slot the bytes decoded are the gate selector of
PREV_SW and the record's level (R46); they decode to a gate action i, and the step is the stages before
the gate, exec of i, and the stages after it (R96). With bytes in the slot that decode to i the step is
exec of i on the state with the slot emptied; bytes that decode to nothing are refused by name. -/
def Obligations.StepRunsTheDecodedOperation : Prop :=
  (∀ s : State, s.slot = [] →
    s.fetchBytes = [selectorByte (selectorOf s.prevSw s.currentIn.sw)] ∧
    ∃ i t, decode s.fetchBytes = .ok i ∧ exec i (beforeGate wave s) = .next t ∧
      step s = .next (afterGate t)) ∧
  (∀ (s : State) (i : Instr), s.slot ≠ [] → decode s.slot = .ok i →
    step s = exec i { s with slot := [] }) ∧
  (∀ (s : State) (e : DecodeError), s.slot ≠ [] → decode s.slot = .error e →
    step s = .refused (.notAnEncoding e))

/-- A word placed for the next step is what that step decodes: for every word that decodes to an
operation, the bytes fetched after placing it decode to the same operation, and the step completes. -/
def Obligations.PlacedWordIsFetched : Prop :=
  ∀ (s : State) (nbits w : Nat) (i : Instr), decodeTableWord nbits w = some i →
    decode (s.withFetchWord nbits w).fetchBytes = .ok i ∧
    ∃ t, step (s.withFetchWord nbits w) = .next t

/-! ### What operations may change -/

/-- WAVE is immutable and no state holds it (R32): what LOOKUP reads at an index depends on the index
alone, the same in any two states whatever else they hold; so after any operation, and after any step,
every index reads as before, and as the one WAVE of this hardware. -/
def Obligations.RomIsNeverWritten : Prop :=
  (∀ s t u v : State, s.phase = t.phase → exec .lookup s = .next u → exec .lookup t = .next v →
    u.wires.sample = v.wires.sample) ∧
  (∀ (i : Instr) (s t u v : State) (a : Phase), exec i s = .next t ∨ step s = .next t →
    exec .lookup { s with phase := a } = .next u → exec .lookup { t with phase := a } = .next v →
    v.wires.sample = u.wires.sample ∧ u.wires.sample = memRead wave a)

/-- Which operations write which state: PHASE is written by ADVANCE (R14), PREV_SW by UPDATE_PREV
(R15), BRIGHT by GATE.MOD and GATE.NEUTRAL (R19), TX by ENCODE and the two actions that call it (R84),
and by the iterations they are part of; the core's iteration leaves BRIGHT alone (R100). -/
def Obligations.OnlyTheirOperationsWriteTheRegisters : Prop :=
  ∀ (i : Instr) (s t : State), exec i s = .next t →
    (t.phase ≠ s.phase → i = .advance ∨ i = .iterate ∨ i = .iterateCore) ∧
    (t.prevSw ≠ s.prevSw → i = .updatePrev ∨ i = .iterate ∨ i = .iterateCore) ∧
    (t.bright ≠ s.bright → (∃ prev, i = .gateMod prev) ∨ i = .gateNeutral ∨ i = .iterate) ∧
    (t.tx ≠ s.tx → (∃ prev, i = .gateMod prev) ∨ i = .gateNeutral ∨ (∃ v, i = .encode v) ∨
      i = .iterate ∨ i = .iterateCore)

/-! ### Reset and invariants -/

/-- The state after reset for any reset values of PREV_SW and BRIGHT (R30): PHASE 0, the two registers
at those values, TX empty, no record, and the first sample WAVE[0] = 0. -/
def Obligations.ResetEstablishes : Prop :=
  ∀ (p : Level) (b : Byte),
    (State.resetWith p b).phase = 0#8 ∧ (State.resetWith p b).prevSw = p ∧
    (State.resetWith p b).bright = b ∧ (State.resetWith p b).tx = [] ∧
    (State.resetWith p b).trace = [] ∧
    memRead wave (State.resetWith p b).phase = 0#8

/-- The parameters of this hardware meet the constraints of R7: TABLE_SIZE = 256, every WAVE[i] an integer
in [-128, 127], WAVE[0] = 0, 0 <= DEPTH_MIN <= NEUTRAL <= DEPTH_MAX <= 16383, RATE_MIN <= RATE_MAX. The
default table of D5, which the spec's test vectors take, meets them too. -/
def Obligations.ParametersMeetTheirConstraints : Prop :=
  params.tableSize = 256 ∧
  (∀ a : Phase, -128 ≤ (memRead wave a).toInt ∧ (memRead wave a).toInt ≤ 127) ∧
  memRead wave 0#8 = 0#8 ∧ defaultWave.wf = true ∧
  0 ≤ params.depthMin ∧ params.depthMin ≤ params.neutral.toNat ∧
  (params.neutral.toNat : Int) ≤ params.depthMax ∧ params.depthMax ≤ 16383 ∧
  params.rateMin ≤ params.rateMax

/-- The model's choice (log 4 and log 5): of the OPEN reset values it takes the spec's defaults,
PREV_SW_RESET = 1 and BRIGHT_RESET = 0. -/
def Obligations.ResetTakesTheDefaults : Prop := State.reset = State.resetWith 1#1 0#8

/-- Iteration 0 and the reset value of PREV_SW (R83): with PREV_SW_RESET = 1 and the switch off nothing
is emitted for as long as it stays off, and with the switch on iteration 0 modulates; with
PREV_SW_RESET = 0 a switch that is off at iteration 0 gives one neutral message. For every brightness at
reset, every legal WAVE w and every stimulus; in the WAVE of this hardware the iterations are the
machine's steps. -/
def Obligations.FirstIterationAfterReset : Prop :=
  ∀ (w : Wave) (s : State) (p : Level) (b : Byte) (ins : List LoopIn),
    s = { State.resetWith p b with inputs := ins } → w.wf = true →
    (p = 1#1 → ∀ n, (∀ k < n, levelAt s k = Level.high) →
      ∃ t, (iterate w)^[n] s = t ∧ t.tx = [] ∧ t.bright = b ∧
        (w = wave → Host.Core.run core n s = .next t)) ∧
    (levelAt s 0 = Level.low →
      ∃ t, iterate w s = t ∧ t.tx = [0xE0#8, 0x7F#8, 0x3F#8] ∧ (w = wave → step s = .next t)) ∧
    (p = 0#1 → levelAt s 0 = Level.high →
      ∃ t, iterate w s = t ∧ t.tx = [0xE0#8, 0x00#8, 0x40#8] ∧ (w = wave → step s = .next t))

/-- The spec's decision and the model's choice: a warm reset returns PHASE, PREV_SW and BRIGHT to their
reset values and starts a new run with an empty TX. The source says nothing of a warm reset (N8), and
this return is the spec's own decision (R124, D12). That the slot is emptied and the transients are idle
is the model's reading of it (log 16, DESIGN CHOICE). LOOKUP reads every index as before, because WAVE is
no state (R30, R32). -/
def Obligations.WarmResetStartsANewRun : Prop :=
  ∀ (s u v : State) (p : Level) (b : Byte) (a : Phase),
    (s.warmReset p b).phase = 0#8 ∧ (s.warmReset p b).prevSw = p ∧
    (s.warmReset p b).bright = b ∧ (s.warmReset p b).tx = [] ∧
    (s.warmReset p b).trace = [] ∧ (s.warmReset p b).slot = [] ∧
    (s.warmReset p b).wires = Wires.idle ∧
    (exec .lookup { s with phase := a } = .next u →
      exec .lookup { s.warmReset p b with phase := a } = .next v →
      v.wires.sample = u.wires.sample)

/-- The invariant of the block holds after reset, for any reset values. -/
def Obligations.ResetMeetsTheInvariant : Prop :=
  ∀ (p : Level) (b : Byte), Inv (State.resetWith p b)

/-- Every step keeps the invariant: TX stays framed in whole messages (R50, R101) and is the
concatenation of the records' messages (R99), every record carries no message or one with a value in
[4927, 11428] (R51) and a Period in [1000, 10000] (R25), no transient survives (R24), and the slot stays
empty. The iteration keeps it in every WAVE w. -/
def Obligations.StepKeepsTheInvariant : Prop :=
  (∀ s t : State, Inv s → step s = .next t → Inv t) ∧
  (∀ (w : Wave) (s : State), Inv s → Inv (iterate w s))

/-- Every iteration appends either zero or exactly three bytes to TX (R101), so that from reset, for
any reset values, any WAVE and any stimulus, TX is always a sequence of whole messages: a length that is a
multiple of 3, 0xE0 at every third position, bytes below 0x80 between. -/
def Obligations.TxIsWholeMessages : Prop :=
  (∀ (w : Wave) (s t : State), s.slot = [] → iterate w s = t →
    (w = wave → step s = .next t) ∧
    (t.tx = s.tx ∨ ∃ b0 b1 b2 : Byte, t.tx = s.tx ++ [b0, b1, b2])) ∧
  (∀ (w : Wave) (n : Nat) (p : Level) (b : Byte) (ins : List LoopIn),
    ∃ t, (iterate w)^[n] { State.resetWith p b with inputs := ins } = t ∧ framed t.tx ∧
      (w = wave → Host.Core.run core n { State.resetWith p b with inputs := ins } = .next t))

/-- Every step keeps the brightness dark while the last sample was inactive, and at most 253 (R78,
R93). The iteration keeps it in every WAVE w. -/
def Obligations.StepKeepsDarkWhenOff : Prop :=
  (∀ s t : State, s.slot = [] → DarkWhenOff s → step s = .next t → DarkWhenOff t) ∧
  (∀ (w : Wave) (s : State), DarkWhenOff s → DarkWhenOff (iterate w s))

/-- The model's choice (log 4 and log 5): at the chosen reset state the brightness output is dark and
the last sample counts as inactive. -/
def Obligations.ResetIsDark : Prop := DarkWhenOff State.reset

/-- D0's nine testable properties (R105) hold of every WAVE whose entry 0 is 0, and of the WAVE of this
hardware, whose iterations are the machine's steps and the operation ITERATE. The fifth is stated as
R105 corrects it: 11428 and 4927, not within 1 of the bounds. -/
def Obligations.TestablePropertiesHold : Prop :=
  (∀ w : Wave, w.wf = true → TestableProperties w) ∧ TestableProperties wave ∧
  (∀ s : State, exec .iterate s = .next (iterate wave s)) ∧
  (∀ s : State, s.slot = [] → step s = .next (iterate wave s))
end

