-- ==== Sys2Proof/Laws/State.lean ====
section
/-!
SUPPORT. One lemma per field per update of State, true by unfolding, so that no proof unfolds a
record update.
-/
namespace Sys2Proof.Machine

section
variable (s : State)

/-! ### setPhase -/

@[simp] theorem State.setPhase_phase (v : Phase) : (s.setPhase v).phase = v := rfl
@[simp] theorem State.setPhase_prevSw (v : Phase) : (s.setPhase v).prevSw = s.prevSw := rfl
@[simp] theorem State.setPhase_bright (v : Phase) : (s.setPhase v).bright = s.bright := rfl
@[simp] theorem State.setPhase_tx (v : Phase) : (s.setPhase v).tx = s.tx := rfl
@[simp] theorem State.setPhase_trace (v : Phase) : (s.setPhase v).trace = s.trace := rfl
@[simp] theorem State.setPhase_coreTrace (v : Phase) : (s.setPhase v).coreTrace = s.coreTrace := rfl
@[simp] theorem State.setPhase_wires (v : Phase) : (s.setPhase v).wires = s.wires := rfl
@[simp] theorem State.setPhase_inputs (v : Phase) : (s.setPhase v).inputs = s.inputs := rfl
@[simp] theorem State.setPhase_coreInputs (v : Phase) : (s.setPhase v).coreInputs = s.coreInputs := rfl
@[simp] theorem State.setPhase_iteration (v : Phase) : (s.setPhase v).iteration = s.iteration := rfl
@[simp] theorem State.setPhase_slot (v : Phase) : (s.setPhase v).slot = s.slot := rfl

/-! ### setPrevSw -/

@[simp] theorem State.setPrevSw_phase (v : Level) : (s.setPrevSw v).phase = s.phase := rfl
@[simp] theorem State.setPrevSw_prevSw (v : Level) : (s.setPrevSw v).prevSw = v := rfl
@[simp] theorem State.setPrevSw_bright (v : Level) : (s.setPrevSw v).bright = s.bright := rfl
@[simp] theorem State.setPrevSw_tx (v : Level) : (s.setPrevSw v).tx = s.tx := rfl
@[simp] theorem State.setPrevSw_trace (v : Level) : (s.setPrevSw v).trace = s.trace := rfl
@[simp] theorem State.setPrevSw_coreTrace (v : Level) : (s.setPrevSw v).coreTrace = s.coreTrace := rfl
@[simp] theorem State.setPrevSw_wires (v : Level) : (s.setPrevSw v).wires = s.wires := rfl
@[simp] theorem State.setPrevSw_inputs (v : Level) : (s.setPrevSw v).inputs = s.inputs := rfl
@[simp] theorem State.setPrevSw_coreInputs (v : Level) : (s.setPrevSw v).coreInputs = s.coreInputs := rfl
@[simp] theorem State.setPrevSw_iteration (v : Level) : (s.setPrevSw v).iteration = s.iteration := rfl
@[simp] theorem State.setPrevSw_slot (v : Level) : (s.setPrevSw v).slot = s.slot := rfl

/-! ### setBright -/

@[simp] theorem State.setBright_phase (v : Byte) : (s.setBright v).phase = s.phase := rfl
@[simp] theorem State.setBright_prevSw (v : Byte) : (s.setBright v).prevSw = s.prevSw := rfl
@[simp] theorem State.setBright_bright (v : Byte) : (s.setBright v).bright = v := rfl
@[simp] theorem State.setBright_tx (v : Byte) : (s.setBright v).tx = s.tx := rfl
@[simp] theorem State.setBright_trace (v : Byte) : (s.setBright v).trace = s.trace := rfl
@[simp] theorem State.setBright_coreTrace (v : Byte) : (s.setBright v).coreTrace = s.coreTrace := rfl
@[simp] theorem State.setBright_wires (v : Byte) : (s.setBright v).wires = s.wires := rfl
@[simp] theorem State.setBright_inputs (v : Byte) : (s.setBright v).inputs = s.inputs := rfl
@[simp] theorem State.setBright_coreInputs (v : Byte) : (s.setBright v).coreInputs = s.coreInputs := rfl
@[simp] theorem State.setBright_iteration (v : Byte) : (s.setBright v).iteration = s.iteration := rfl
@[simp] theorem State.setBright_slot (v : Byte) : (s.setBright v).slot = s.slot := rfl

/-! ### setWires -/

@[simp] theorem State.setWires_phase (w : Wires) : (s.setWires w).phase = s.phase := rfl
@[simp] theorem State.setWires_prevSw (w : Wires) : (s.setWires w).prevSw = s.prevSw := rfl
@[simp] theorem State.setWires_bright (w : Wires) : (s.setWires w).bright = s.bright := rfl
@[simp] theorem State.setWires_tx (w : Wires) : (s.setWires w).tx = s.tx := rfl
@[simp] theorem State.setWires_trace (w : Wires) : (s.setWires w).trace = s.trace := rfl
@[simp] theorem State.setWires_coreTrace (w : Wires) : (s.setWires w).coreTrace = s.coreTrace := rfl
@[simp] theorem State.setWires_wires (w : Wires) : (s.setWires w).wires = w := rfl
@[simp] theorem State.setWires_inputs (w : Wires) : (s.setWires w).inputs = s.inputs := rfl
@[simp] theorem State.setWires_coreInputs (w : Wires) : (s.setWires w).coreInputs = s.coreInputs := rfl
@[simp] theorem State.setWires_iteration (w : Wires) : (s.setWires w).iteration = s.iteration := rfl
@[simp] theorem State.setWires_slot (w : Wires) : (s.setWires w).slot = s.slot := rfl

/-! ### setSlot -/

@[simp] theorem State.setSlot_phase (bs : List Byte) : (s.setSlot bs).phase = s.phase := rfl
@[simp] theorem State.setSlot_prevSw (bs : List Byte) : (s.setSlot bs).prevSw = s.prevSw := rfl
@[simp] theorem State.setSlot_bright (bs : List Byte) : (s.setSlot bs).bright = s.bright := rfl
@[simp] theorem State.setSlot_tx (bs : List Byte) : (s.setSlot bs).tx = s.tx := rfl
@[simp] theorem State.setSlot_trace (bs : List Byte) : (s.setSlot bs).trace = s.trace := rfl
@[simp] theorem State.setSlot_coreTrace (bs : List Byte) : (s.setSlot bs).coreTrace = s.coreTrace := rfl
@[simp] theorem State.setSlot_wires (bs : List Byte) : (s.setSlot bs).wires = s.wires := rfl
@[simp] theorem State.setSlot_inputs (bs : List Byte) : (s.setSlot bs).inputs = s.inputs := rfl
@[simp] theorem State.setSlot_coreInputs (bs : List Byte) : (s.setSlot bs).coreInputs = s.coreInputs := rfl
@[simp] theorem State.setSlot_iteration (bs : List Byte) : (s.setSlot bs).iteration = s.iteration := rfl
@[simp] theorem State.setSlot_slot (bs : List Byte) : (s.setSlot bs).slot = bs := rfl

/-! ### emit -/

@[simp] theorem State.emit_phase (b : Byte) : (s.emit b).phase = s.phase := rfl
@[simp] theorem State.emit_prevSw (b : Byte) : (s.emit b).prevSw = s.prevSw := rfl
@[simp] theorem State.emit_bright (b : Byte) : (s.emit b).bright = s.bright := rfl
@[simp] theorem State.emit_tx (b : Byte) : (s.emit b).tx = s.tx ++ [b] := rfl
@[simp] theorem State.emit_trace (b : Byte) : (s.emit b).trace = s.trace := rfl
@[simp] theorem State.emit_coreTrace (b : Byte) : (s.emit b).coreTrace = s.coreTrace := rfl
@[simp] theorem State.emit_wires (b : Byte) : (s.emit b).wires = { s.wires with msg := s.wires.msg ++ [b] } := rfl
@[simp] theorem State.emit_inputs (b : Byte) : (s.emit b).inputs = s.inputs := rfl
@[simp] theorem State.emit_coreInputs (b : Byte) : (s.emit b).coreInputs = s.coreInputs := rfl
@[simp] theorem State.emit_iteration (b : Byte) : (s.emit b).iteration = s.iteration := rfl
@[simp] theorem State.emit_slot (b : Byte) : (s.emit b).slot = s.slot := rfl

/-! ### record -/

@[simp] theorem State.record_phase (o : LoopOut) : (s.record o).phase = s.phase := rfl
@[simp] theorem State.record_prevSw (o : LoopOut) : (s.record o).prevSw = s.prevSw := rfl
@[simp] theorem State.record_bright (o : LoopOut) : (s.record o).bright = s.bright := rfl
@[simp] theorem State.record_tx (o : LoopOut) : (s.record o).tx = s.tx := rfl
@[simp] theorem State.record_trace (o : LoopOut) : (s.record o).trace = s.trace ++ [o] := rfl
@[simp] theorem State.record_coreTrace (o : LoopOut) : (s.record o).coreTrace = s.coreTrace := rfl
@[simp] theorem State.record_wires (o : LoopOut) : (s.record o).wires = s.wires := rfl
@[simp] theorem State.record_inputs (o : LoopOut) : (s.record o).inputs = s.inputs := rfl
@[simp] theorem State.record_coreInputs (o : LoopOut) : (s.record o).coreInputs = s.coreInputs := rfl
@[simp] theorem State.record_iteration (o : LoopOut) : (s.record o).iteration = s.iteration := rfl
@[simp] theorem State.record_slot (o : LoopOut) : (s.record o).slot = s.slot := rfl

/-! ### recordCore -/

@[simp] theorem State.recordCore_phase (o : CoreOut) : (s.recordCore o).phase = s.phase := rfl
@[simp] theorem State.recordCore_prevSw (o : CoreOut) : (s.recordCore o).prevSw = s.prevSw := rfl
@[simp] theorem State.recordCore_bright (o : CoreOut) : (s.recordCore o).bright = s.bright := rfl
@[simp] theorem State.recordCore_tx (o : CoreOut) : (s.recordCore o).tx = s.tx := rfl
@[simp] theorem State.recordCore_trace (o : CoreOut) : (s.recordCore o).trace = s.trace := rfl
@[simp] theorem State.recordCore_coreTrace (o : CoreOut) : (s.recordCore o).coreTrace = s.coreTrace ++ [o] := rfl
@[simp] theorem State.recordCore_wires (o : CoreOut) : (s.recordCore o).wires = s.wires := rfl
@[simp] theorem State.recordCore_inputs (o : CoreOut) : (s.recordCore o).inputs = s.inputs := rfl
@[simp] theorem State.recordCore_coreInputs (o : CoreOut) : (s.recordCore o).coreInputs = s.coreInputs := rfl
@[simp] theorem State.recordCore_iteration (o : CoreOut) : (s.recordCore o).iteration = s.iteration := rfl
@[simp] theorem State.recordCore_slot (o : CoreOut) : (s.recordCore o).slot = s.slot := rfl

/-! ### popInput -/

@[simp] theorem State.popInput_phase : (s.popInput).phase = s.phase := rfl
@[simp] theorem State.popInput_prevSw : (s.popInput).prevSw = s.prevSw := rfl
@[simp] theorem State.popInput_bright : (s.popInput).bright = s.bright := rfl
@[simp] theorem State.popInput_tx : (s.popInput).tx = s.tx := rfl
@[simp] theorem State.popInput_trace : (s.popInput).trace = s.trace := rfl
@[simp] theorem State.popInput_coreTrace : (s.popInput).coreTrace = s.coreTrace := rfl
@[simp] theorem State.popInput_wires : (s.popInput).wires = s.wires := rfl
@[simp] theorem State.popInput_inputs : (s.popInput).inputs = s.inputs.tail := rfl
@[simp] theorem State.popInput_coreInputs : (s.popInput).coreInputs = s.coreInputs := rfl
@[simp] theorem State.popInput_iteration : (s.popInput).iteration = s.iteration + 1 := rfl
@[simp] theorem State.popInput_slot : (s.popInput).slot = s.slot := rfl

/-! ### popCoreInput -/

@[simp] theorem State.popCoreInput_phase : (s.popCoreInput).phase = s.phase := rfl
@[simp] theorem State.popCoreInput_prevSw : (s.popCoreInput).prevSw = s.prevSw := rfl
@[simp] theorem State.popCoreInput_bright : (s.popCoreInput).bright = s.bright := rfl
@[simp] theorem State.popCoreInput_tx : (s.popCoreInput).tx = s.tx := rfl
@[simp] theorem State.popCoreInput_trace : (s.popCoreInput).trace = s.trace := rfl
@[simp] theorem State.popCoreInput_coreTrace : (s.popCoreInput).coreTrace = s.coreTrace := rfl
@[simp] theorem State.popCoreInput_wires : (s.popCoreInput).wires = s.wires := rfl
@[simp] theorem State.popCoreInput_inputs : (s.popCoreInput).inputs = s.inputs := rfl
@[simp] theorem State.popCoreInput_coreInputs : (s.popCoreInput).coreInputs = s.coreInputs.tail := rfl
@[simp] theorem State.popCoreInput_iteration : (s.popCoreInput).iteration = s.iteration + 1 := rfl
@[simp] theorem State.popCoreInput_slot : (s.popCoreInput).slot = s.slot := rfl

/-! ### The state after reset -/

@[simp] theorem State.resetWith_phase (p : Level) (b : Byte) : (State.resetWith p b).phase = 0#8 := rfl
@[simp] theorem State.resetWith_prevSw (p : Level) (b : Byte) : (State.resetWith p b).prevSw = p := rfl
@[simp] theorem State.resetWith_bright (p : Level) (b : Byte) : (State.resetWith p b).bright = b := rfl
@[simp] theorem State.resetWith_tx (p : Level) (b : Byte) : (State.resetWith p b).tx = [] := rfl
@[simp] theorem State.resetWith_trace (p : Level) (b : Byte) : (State.resetWith p b).trace = [] := rfl
@[simp] theorem State.resetWith_coreTrace (p : Level) (b : Byte) : (State.resetWith p b).coreTrace = [] := rfl
@[simp] theorem State.resetWith_wires (p : Level) (b : Byte) : (State.resetWith p b).wires = Wires.idle := rfl
@[simp] theorem State.resetWith_inputs (p : Level) (b : Byte) : (State.resetWith p b).inputs = [] := rfl
@[simp] theorem State.resetWith_coreInputs (p : Level) (b : Byte) : (State.resetWith p b).coreInputs = [] := rfl
@[simp] theorem State.resetWith_iteration (p : Level) (b : Byte) : (State.resetWith p b).iteration = 0 := rfl
@[simp] theorem State.resetWith_slot (p : Level) (b : Byte) : (State.resetWith p b).slot = [] := rfl

end

end Sys2Proof.Machine
end

