-- ==== Sys2Proof/Laws/Ops.lean ====
section
/-!
SUPPORT. One lemma per shared operation that says what it does: the integer primitives, the ROM, the
encoder, the input ports, and the inversion of a step.
-/
namespace Sys2Proof.Machine

/-! ### Integer primitives -/

/-- On a dividend that is not negative, truncation is floor (R67, R91). -/
theorem tdiv_of_nonneg {a b : Int} (h : 0 ≤ a) : tdiv a b = a / b := by
  unfold tdiv; rw [if_pos h]

/-- The spec's `tdiv` is Lean's quotient truncated toward zero (R9). -/
theorem tdiv_eq_int_tdiv (a b : Int) : tdiv a b = Int.tdiv a b := by
  unfold tdiv
  split
  · rw [Int.tdiv_eq_ediv_of_nonneg ‹_›]
  · have h : 0 ≤ -a := by omega
    rw [← Int.tdiv_eq_ediv_of_nonneg h, Int.neg_tdiv, neg_neg]

/-- MAP of operands R65 admits. -/
theorem mapInt_of_lt {x a b c d : Int} (h : a < b) :
    mapInt x a b c d = c + tdiv ((x - a) * (d - c)) (b - a) := by
  unfold mapInt; rw [if_pos h]

/-- MAP inside its source range, into a range that is not reversed: the quotient is a floor. -/
theorem mapInt_of_mem {x a b c d : Int} (h : a < b) (hx : a ≤ x) (hd : c ≤ d) :
    mapInt x a b c d = c + (x - a) * (d - c) / (b - a) := by
  rw [mapInt_of_lt h, tdiv_of_nonneg (Int.mul_nonneg (by omega) (by omega))]

/-! ### Combinational functions, on plain numbers -/

/-- READ_PERIOD's function on plain numbers. -/
theorem periodOf_toNat (r : RawSample) : (periodOf params r).toNat = Safety.period r.toNat := by
  have hr := r.isLt
  have hq : r.toNat * 9000 / 1023 ≤ 9000 := by omega
  have h : mapInt (zext r) 0 params.rawMax params.rateMin params.rateMax
      = ((Safety.period r.toNat : Nat) : Int) := by
    rw [mapInt_of_mem (by decide) (by simp [zext]) (by decide)]
    simp [params, zext, Safety.period]
  unfold periodOf
  rw [h, BitVec.ofInt_natCast, BitVec.toNat_ofNat, Nat.mod_eq_of_lt]
  unfold Safety.period; omega

/-- READ_DEPTH's function on plain numbers. -/
theorem depthOf_toNat (r : RawSample) : (depthOf params r).toNat = Safety.depth r.toNat := by
  have hr := r.isLt
  have h : mapInt (zext r) 0 params.rawMax 0 params.levelMax
      = ((Safety.depth r.toNat : Nat) : Int) := by
    rw [mapInt_of_mem (by decide) (by simp [zext]) (by decide)]
    simp [params, zext, Safety.depth]
  unfold depthOf
  rw [h, BitVec.ofInt_natCast, BitVec.toNat_ofNat, Nat.mod_eq_of_lt]
  unfold Safety.depth; omega

/-- The product of a depth and a sample stays in the range R66 gives. -/
theorem product_bounds (d : Depth) (x : Sample) :
    -32640 ≤ (d.toNat : Int) * x.toInt ∧ (d.toNat : Int) * x.toInt ≤ 32385 := by
  have hd : (d.toNat : Int) ≤ 255 := by have := d.isLt; omega
  have h0 : (0 : Int) ≤ d.toNat := by omega
  have hl : (-128 : Int) ≤ x.toInt := by have := BitVec.le_toInt x; simpa using this
  have hu : x.toInt ≤ 127 := by have := @BitVec.toInt_lt 8 x; omega
  constructor
  · nlinarith
  · nlinarith

/-- MULT's function: the product is exact, no wrap (R66). -/
theorem productOf_toInt (d : Depth) (x : Sample) :
    (productOf d x).toInt = (d.toNat : Int) * x.toInt := by
  have h := product_bounds d x
  unfold productOf zext sext
  rw [BitVec.toInt_ofInt, Int.bmod_eq_of_le] <;> omega

/-- COMPUTE's map on plain numbers, for every 16-bit signed raw. -/
theorem controlOf_toNat (raw : Product) :
    ((controlOf params raw).toNat : Int) = 4915 + (raw.toInt + 32768) * 6552 / 65535 := by
  have hl : (-32768 : Int) ≤ raw.toInt := by have := BitVec.le_toInt raw; simpa using this
  have hu : raw.toInt ≤ 32767 := by have := @BitVec.toInt_lt 16 raw; omega
  have h : mapInt (sext raw) params.srcMin params.srcMax params.depthMin params.depthMax
      = 4915 + (raw.toInt + 32768) * 6552 / 65535 := by
    rw [mapInt_of_mem (by decide) (by simpa [params, sext] using hl) (by decide)]
    simp [params, sext]
  unfold controlOf
  rw [h, BitVec.toNat_ofInt]
  omega

/-- COMPUTE's result on plain numbers. -/
theorem control_toNat (d : Depth) (x : Sample) :
    (controlOf params (productOf d x)).toNat = Safety.controlValue d.toNat x.toInt := by
  have h := controlOf_toNat (productOf d x)
  rw [productOf_toInt] at h
  unfold Safety.controlValue
  omega

/-- FEEDBACK's function on plain numbers, in its domain. -/
theorem brightnessOf_toNat {cv : ControlValue} (hl : 4915 ≤ cv.toNat) (hu : cv.toNat ≤ 11467) :
    (brightnessOf params cv).toNat = Safety.brightness cv.toNat := by
  have h : mapInt (zext cv) params.depthMin params.depthMax 0 params.levelMax
      = ((Safety.brightness cv.toNat : Nat) : Int) := by
    rw [mapInt_of_mem (by decide) (by simp [params, zext]; omega) (by decide)]
    simp only [params, zext, Safety.brightness]
    omega
  unfold brightnessOf
  rw [if_pos (by simp only [params, zext]; omega), h, BitVec.ofInt_natCast, BitVec.toNat_ofNat,
    Nat.mod_eq_of_lt]
  unfold Safety.brightness; omega

/-! ### The waveform ROM -/

/-- Reading an index gives that entry of WAVE, whatever the state (R33). -/
theorem memRead_eq (w : Wave) (a : Phase) : memRead w a = w a := rfl

/-- Entry 0 of a well-formed WAVE reads as 0 (R7). -/
theorem memRead_zero {w : Wave} (h : w.wf = true) : memRead w 0#8 = 0#8 := by
  simpa [Wave.wf, memRead] using h

/-- WAVE of this hardware is well formed, whatever its free entries are (R7). -/
@[simp] theorem wave_wf : wave.wf = true := rfl

/-- Every entry lies in [-128, 127] (R7, R33). -/
theorem memRead_bounds (w : Wave) (a : Phase) :
    -128 ≤ (memRead w a).toInt ∧ (memRead w a).toInt ≤ 127 := by
  have h := BitVec.le_toInt (memRead w a)
  have h' := @BitVec.toInt_lt 8 (memRead w a)
  omega

/-! ### Encoder and gate -/

/-- What ENCODE does: the septets, and three bytes at the end of TX and of the message (R84). -/
theorem encodeValue_eq (v : ControlValue) (s : State) :
    encodeValue v s = { s with
      tx := s.tx ++ [0xE0#8, septetByte (lowOf v), septetByte (highOf v)]
      wires := { s.wires with
        low := lowOf v
        high := highOf v
        msg := s.wires.msg ++ [0xE0#8, septetByte (lowOf v), septetByte (highOf v)] } } := by
  simp [encodeValue, State.emit, State.setWires, params]

/-- The field low on plain numbers (R49). -/
theorem lowOf_toNat (v : ControlValue) : (lowOf v).toNat = v.toNat % 128 := by
  simp [lowOf, BitVec.extractLsb'_toNat]

/-- The field high on plain numbers (R49). -/
theorem highOf_toNat (v : ControlValue) : (highOf v).toNat = v.toNat / 128 := by
  have hv := v.isLt
  simp [highOf, BitVec.extractLsb'_toNat, Nat.shiftRight_eq_div_pow]
  omega

/-- The receiver's value on plain numbers (R49). -/
theorem valueOf_toNat (low high : Septet) :
    (valueOf low high).toNat = high.toNat * 128 + low.toNat := by
  have hl := low.isLt
  show (high ++ low : BitVec (7 + 7)).toNat = _
  rw [BitVec.toNat_append, ← Nat.shiftLeft_add_eq_or_of_lt hl, Nat.shiftLeft_eq]

/-- The byte of the low septet on plain numbers (R49). -/
theorem septetByte_lowOf (v : ControlValue) :
    septetByte (lowOf v) = BitVec.ofNat 8 (v.toNat % 128) := by
  apply BitVec.eq_of_toNat_eq
  simp [septetByte, lowOf, BitVec.extractLsb'_toNat]

/-- The byte of the high septet on plain numbers (R49). -/
theorem septetByte_highOf (v : ControlValue) :
    septetByte (highOf v) = BitVec.ofNat 8 (v.toNat / 128) := by
  have hv := v.isLt
  apply BitVec.eq_of_toNat_eq
  simp [septetByte, highOf, BitVec.extractLsb'_toNat, Nat.shiftRight_eq_div_pow]
  omega

/-- What the gate's hand-over of a value does: out_cv, the septets, one message (R76, R77). -/
theorem sendValue_eq (v : ControlValue) (s : State) :
    sendValue v s = { s with
      tx := s.tx ++ [0xE0#8, septetByte (lowOf v), septetByte (highOf v)]
      wires := { s.wires with
        outCv := some v
        low := lowOf v
        high := highOf v
        msg := s.wires.msg ++ [0xE0#8, septetByte (lowOf v), septetByte (highOf v)] } } := by
  simp [sendValue, encodeValue_eq, State.setWires]

/-- A level is LOW or HIGH. -/
theorem level_cases (l : Level) : l = Level.low ∨ l = Level.high := by
  revert l; decide

/-- The gate's selection by levels (R75). -/
theorem gateAction_selectorOf (prev cur : Level) :
    gateAction (selectorOf prev cur) =
      if cur = Level.low then .mod else if prev = Level.low then .neutral else .idle := by
  revert prev cur; decide

/-! ### Input ports -/

/-- Writing the transients changes no input port. -/
@[simp] theorem setWires_currentIn (s : State) (w : Wires) :
    (s.setWires w).currentIn = s.currentIn := rfl

/-- Writing the transients changes no input port of the core. -/
@[simp] theorem setWires_currentCoreIn (s : State) (w : Wires) :
    (s.setWires w).currentCoreIn = s.currentCoreIn := rfl

/-- After a whole-loop iteration the records to come are one nearer. -/
theorem loopRecord_popInput (s : State) (k : Nat) :
    s.popInput.loopRecord k = s.loopRecord (k + 1) := by
  simp [State.loopRecord, Nat.add_comm, Nat.add_left_comm]

/-- After a core-only iteration the core's records to come are one nearer. -/
theorem coreRecord_popCoreInput (s : State) (k : Nat) :
    s.popCoreInput.coreRecord k = s.coreRecord (k + 1) := by
  simp [State.coreRecord, Nat.add_comm, Nat.add_left_comm]

/-! ### What a step can do -/

/-- A step that answers a next state has run one iteration, or the operation placed in the slot. -/
theorem step_next_cases {s t : State} (h : step s = .next t) :
    (s.slot = [] ∧ t = iterate wave s) ∨
      (s.slot ≠ [] ∧ ∃ i, decode s.slot = .ok i ∧ exec i (s.setSlot []) = .next t) := by
  unfold step at h
  split at h
  · rename_i hs
    simp only [exec, execIterate, Host.Outcome.next.injEq] at h
    exact .inl ⟨hs, h.symm⟩
  · rename_i b bs hs
    have hf : s.fetchBytes = s.slot := by simp [State.fetchBytes, hs]
    refine .inr ⟨by simp [hs], ?_⟩
    rw [hf] at h
    split at h
    · exact ⟨_, ‹_›, h⟩
    · cases h

/-- A run whose first step answers a next state goes on from it, on any machine of the host's form. -/
theorem run_succ_of_step {M : Host.Core} {s t : M.State} (n : Nat) (h : M.step s = .next t) :
    M.run (n + 1) s = M.run n t := by
  simp [Host.Core.run, h]

/-- The same for this machine, whose step is `step`. -/
theorem run_succ_of_next {s t : State} (n : Nat) (h : step s = .next t) :
    Host.Core.run core (n + 1) s = Host.Core.run core n t :=
  run_succ_of_step (M := core) n h

/-- A run of no step stays where it is. -/
theorem run_zero (s : State) : Host.Core.run core 0 s = .next s := rfl

end Sys2Proof.Machine
end

