-- ==== Sys2Proof/Laws/Iteration.lean ====
section
/-!
SUPPORT. What the stages before the gate, the gate itself and the stages after it do to each field of
the state, once, so that no proof about an iteration unfolds them.
-/
namespace Sys2Proof.Machine

/-! ### The stages before the gate -/

/-- The transients the gate sees: each computed from the input record, the ROM and PHASE (R96). -/
theorem beforeGate_eq (w : Wave) (s : State) :
    beforeGate w s = { s with wires := { Wires.idle with
      rawRate := s.currentIn.rawRate
      period := periodOf params s.currentIn.rawRate
      rawDepth := s.currentIn.rawDepth
      depth := depthOf params s.currentIn.rawDepth
      sample := memRead w s.phase
      raw := productOf (depthOf params s.currentIn.rawDepth) (memRead w s.phase)
      cv := controlOf params
        (productOf (depthOf params s.currentIn.rawDepth) (memRead w s.phase))
      sw := s.currentIn.sw } } := by
  simp only [beforeGate, sampleSw, compute, mult, lookup, readDepth, readPeriod, freshWires,
    setWires_currentIn, State.setWires_wires, State.setWires_phase]
  simp only [State.setWires]

/-- The transients the core's gate sees (R100). -/
theorem beforeGateCore_eq (w : Wave) (s : State) :
    beforeGateCore w s = { s with wires := { Wires.idle with
      depth := s.currentCoreIn.depth
      sample := memRead w s.phase
      raw := productOf s.currentCoreIn.depth (memRead w s.phase)
      cv := controlOf params (productOf s.currentCoreIn.depth (memRead w s.phase))
      sw := s.currentCoreIn.sw } } := by
  simp only [beforeGateCore, takeCoreSw, compute, mult, lookup, takeCoreDepth, freshWires,
    setWires_currentCoreIn, State.setWires_wires, State.setWires_phase]
  simp only [State.setWires]

/-! ### The gate -/

/-- The bytes the gate emits, from the two levels and the computed value (R80). -/
def gateBytes (prev sw : Level) (cv : ControlValue) : List Byte :=
  if sw = Level.low then [0xE0#8, septetByte (lowOf cv), septetByte (highOf cv)]
  else if prev = Level.low then [0xE0#8, 0x00#8, 0x40#8]
  else []

/-- The brightness the gate leaves, from the two levels and the computed value (R80). -/
def gateBright (prev sw : Level) (cv : ControlValue) (held : Byte) : Byte :=
  if sw = Level.low then brightnessOf params cv
  else if prev = Level.low then 0#8
  else held

/-- The gate by cases of the two levels (R75). -/
theorem gate_cases (s : State) :
    gate s = if s.wires.sw = Level.low then gateMod s
      else if s.prevSw = Level.low then gateNeutral s else s := by
  unfold gate State.gateSelection
  rw [gateAction_selectorOf]
  by_cases h : s.wires.sw = Level.low
  · simp [h]
  · by_cases hp : s.prevSw = Level.low <;> simp [h, hp, gateIdle]

/-- The core's gate by cases of the two levels (R75). -/
theorem gateCore_cases (s : State) :
    gateCore s = if s.wires.sw = Level.low then sendValue s.wires.cv s
      else if s.prevSw = Level.low then sendValue params.neutral s else s := by
  unfold gateCore State.gateSelection
  rw [gateAction_selectorOf]
  by_cases h : s.wires.sw = Level.low
  · simp [h]
  · by_cases hp : s.prevSw = Level.low <;> simp [h, hp]

/-- What the gate does to each field (R80). -/
theorem gate_fields (s : State) :
    (gate s).phase = s.phase ∧ (gate s).prevSw = s.prevSw ∧
    (gate s).bright = gateBright s.prevSw s.wires.sw s.wires.cv s.bright ∧
    (gate s).tx = s.tx ++ gateBytes s.prevSw s.wires.sw s.wires.cv ∧
    (gate s).trace = s.trace ∧ (gate s).coreTrace = s.coreTrace ∧
    (gate s).inputs = s.inputs ∧ (gate s).coreInputs = s.coreInputs ∧
    (gate s).iteration = s.iteration ∧ (gate s).slot = s.slot ∧
    (gate s).wires.msg = s.wires.msg ++ gateBytes s.prevSw s.wires.sw s.wires.cv ∧
    (gate s).wires.sw = s.wires.sw ∧ (gate s).wires.period = s.wires.period := by
  rw [gate_cases]
  unfold gateBytes gateBright
  split
  · simp [gateMod, sendValue_eq, feedback]
  · split
    · simp [gateNeutral, sendValue_eq]; decide
    · simp

/-- What the core's gate does to each field (R100). -/
theorem gateCore_fields (s : State) :
    (gateCore s).phase = s.phase ∧ (gateCore s).prevSw = s.prevSw ∧
    (gateCore s).bright = s.bright ∧
    (gateCore s).tx = s.tx ++ gateBytes s.prevSw s.wires.sw s.wires.cv ∧
    (gateCore s).trace = s.trace ∧ (gateCore s).coreTrace = s.coreTrace ∧
    (gateCore s).inputs = s.inputs ∧ (gateCore s).coreInputs = s.coreInputs ∧
    (gateCore s).iteration = s.iteration ∧ (gateCore s).slot = s.slot ∧
    (gateCore s).wires.msg = s.wires.msg ++ gateBytes s.prevSw s.wires.sw s.wires.cv ∧
    (gateCore s).wires.sw = s.wires.sw := by
  rw [gateCore_cases]
  unfold gateBytes
  split
  · simp [sendValue_eq]
  · split
    · simp [sendValue_eq]; decide
    · simp

/-! ### The stages after the gate -/

/-- What the end of an iteration does: the record, PREV_SW, PHASE, and no transient left (R18, R98). -/
theorem afterGate_eq (s : State) :
    afterGate s = { s with
      phase := s.phase + 1#8
      prevSw := s.wires.sw
      trace := s.trace ++ [{ tx := s.wires.msg, bright := s.bright, waitUs := s.wires.period }]
      wires := Wires.idle
      inputs := s.inputs.tail
      iteration := s.iteration + 1 } := rfl

/-- What the end of a core-only iteration does (R100). -/
theorem afterGateCore_eq (s : State) :
    afterGateCore s = { s with
      phase := s.phase + 1#8
      prevSw := s.wires.sw
      coreTrace := s.coreTrace ++ [{ tx := s.wires.msg }]
      wires := Wires.idle
      coreInputs := s.coreInputs.tail
      iteration := s.iteration + 1 } := rfl

end Sys2Proof.Machine
end

