-- ==== Sys2Proof/Laws/PerInstr.lean ====
section
/-!
SUPPORT. A fact about every operation as syntax, one lemma per constructor: the width of its encoding
(30_encoding.md R46, R48, R52, R53).
-/
namespace Sys2Proof.Laws

/-- How many bytes an operation's format has: one for GATE2 (two bits in a byte), three for MSG24,
none for ALWAYS (R52, R53). -/
def formatBytes (i : Instr) : Nat :=
  match i with
  | .gateMod _ => 1
  | .gateNeutral => 1
  | .gateIdle => 1
  | .encode _ => 3
  | .readPeriod => 0
  | .readDepth => 0
  | .lookup => 0
  | .mult => 0
  | .map _ _ _ _ _ => 0
  | .compute => 0
  | .sampleSw => 0
  | .feedback => 0
  | .wait => 0
  | .updatePrev => 0
  | .advance => 0
  | .iterate => 0
  | .iterateCore => 0

/-- The encoder gives an operation exactly the bytes of its format, and gives none to an operation
whose format has no bits. -/
def EncodingWidth.Statement (i : Instr) : Prop := ((encode i).getD []).length = formatBytes i

theorem EncodingWidth.gateMod (prev : Level) : EncodingWidth.Statement (.gateMod prev) := rfl
theorem EncodingWidth.gateNeutral : EncodingWidth.Statement .gateNeutral := rfl
theorem EncodingWidth.gateIdle : EncodingWidth.Statement .gateIdle := rfl
theorem EncodingWidth.encode (v : ControlValue) : EncodingWidth.Statement (.encode v) := rfl
theorem EncodingWidth.readPeriod : EncodingWidth.Statement .readPeriod := rfl
theorem EncodingWidth.readDepth : EncodingWidth.Statement .readDepth := rfl
theorem EncodingWidth.lookup : EncodingWidth.Statement .lookup := rfl
theorem EncodingWidth.mult : EncodingWidth.Statement .mult := rfl
theorem EncodingWidth.map (x inMin inMax outMin outMax : Int) :
    EncodingWidth.Statement (.map x inMin inMax outMin outMax) := rfl
theorem EncodingWidth.compute : EncodingWidth.Statement .compute := rfl
theorem EncodingWidth.sampleSw : EncodingWidth.Statement .sampleSw := rfl
theorem EncodingWidth.feedback : EncodingWidth.Statement .feedback := rfl
theorem EncodingWidth.wait : EncodingWidth.Statement .wait := rfl
theorem EncodingWidth.updatePrev : EncodingWidth.Statement .updatePrev := rfl
theorem EncodingWidth.advance : EncodingWidth.Statement .advance := rfl
theorem EncodingWidth.iterate : EncodingWidth.Statement .iterate := rfl
theorem EncodingWidth.iterateCore : EncodingWidth.Statement .iterateCore := rfl

end Sys2Proof.Laws
end

