-- ==== Sys2Proof/Machine/Stimulus.lean ====
section
/-!
DEFINITION. The stimulus, the nearest thing the block has to a program: one input record per
iteration, in the notation of 30_encoding.md R55 and R56.
-/
namespace Sys2Proof.Machine

/-- A line of the stimulus notation. A field that is missing has the default of R56. -/
inductive StimulusLine where
  /-- `IT sw=.. rd=.. rr=..`, a whole-loop iteration (R55) -/
  | it (sw : Level) (rd rr : Option RawSample)
  /-- `ITC sw=.. d=..`, a core-only iteration (R55) -/
  | itc (sw : Level) (d : Option Depth)
  /-- `REP n: <line>`, n copies of the line (R56) -/
  | rep (n : Nat) (line : StimulusLine)
deriving DecidableEq, Repr

/-- `ON` expands to sw=0 (R56). -/
def stimulusOn : Level := Level.low

/-- `OFF` expands to sw=1 (R56). -/
def stimulusOff : Level := Level.high

/-- The whole-loop records of a line: a missing rd is 1023, a missing rr is 0 (R55, R56). -/
def loopRecordsOf (line : StimulusLine) : List LoopIn :=
  match line with
  | .it sw rd rr => [{ rawRate := rr.getD 0#10, rawDepth := rd.getD 1023#10, sw := sw }]
  | .itc _ _ => []
  | .rep n l => (List.replicate n (loopRecordsOf l)).flatten

/-- The core-only records of a line: a missing d is 255 (R55, R56). -/
def coreRecordsOf (line : StimulusLine) : List CoreIn :=
  match line with
  | .it _ _ _ => []
  | .itc sw d => [{ depth := d.getD 255#8, sw := sw }]
  | .rep n l => (List.replicate n (coreRecordsOf l)).flatten

/-- `RESET PREV_SW_RESET=.. BRIGHT_RESET=..` and then the lines of a stimulus (R55): the state of R30
with those records to be sampled. -/
def State.ofStimulus (prevSwReset : Level) (brightReset : Byte) (lines : List StimulusLine) : State :=
  { State.resetWith prevSwReset brightReset with
    inputs := lines.flatMap loopRecordsOf
    coreInputs := lines.flatMap coreRecordsOf }

end Sys2Proof.Machine
end

