-- ==== Sys2Proof/Tests/Slice0.lean ====
section
/-!
SUPPORT. The model's own tests. Expected values come from spec/95_test_vectors.md (the section is named
at each group) or are written out from the spec's encodings; one step each, on small states. The
witness theorems show, for each statement with hypotheses, a concrete state and operands that meet
them together.
-/
namespace Sys2Proof.Tests

open Sys2Proof.Machine Sys2Proof.Safety

/-! ### Helpers -/

/-- What a next state holds in one place; none for a fault or a refusal. -/
def seen {α : Type} (o : Host.Outcome State Fault Refusal) (f : State → α) : Option α :=
  match o with
  | .next s => some (f s)
  | .fault _ => none
  | .refused _ => none

/-- A state between iterations. Where a test reads an entry of WAVE other than entry 0, it runs the unit
in the default table (92_eei_decisions.md D5), which the spec's vectors take. -/
def at' (phase : Phase) (prevSw : Level) (bright : Byte) (inputs : List LoopIn) : State :=
  { State.reset with
    phase := phase
    prevSw := prevSw
    bright := bright
    inputs := inputs }

/-- A state in the middle of an iteration, with the transients the named operation reads. -/
def mid (w : Wires) : State := { State.reset with wires := w, bright := 77#8 }

/-! ### WellFormed: one ill-formed term for each check -/

theorem test_wf_map_refuses_empty_source : (Instr.map 0 5 5 0 255).wf = false := by decide
theorem test_wf_map_admits : (Instr.map 0 (-32768) 32767 4915 11467).wf = true := by decide
theorem test_params_wf : params.wf = true := by decide
theorem test_params_wf_tableSize : ({ params with tableSize := 255 } : Params).wf = false := by decide
theorem test_params_wf_depthMin_sign : ({ params with depthMin := -1 } : Params).wf = false := by decide
theorem test_params_wf_depthMin : ({ params with depthMin := 8193 } : Params).wf = false := by decide
theorem test_params_wf_depthMax : ({ params with depthMax := 8191 } : Params).wf = false := by decide
theorem test_params_wf_depthMax_width : ({ params with depthMax := 16384 } : Params).wf = false := by
  decide
theorem test_params_wf_rate : ({ params with rateMin := 10001 } : Params).wf = false := by decide
theorem test_wave_wf_refuses_entry_zero : Wave.wf (fun _ => 1#8) = false := by decide
theorem test_wave_wf_admits : defaultWave.wf = true := by decide

/-- D5: the properties the spec gives of its default table: 256 entries, entries 0 and 128 alone are 0, the
second half is the first with the sign reversed, the first half is a mirror image of itself, the greatest
entries are 127 at 61 to 67. -/
theorem test_default_table :
    defaultRise.length = 128 ∧ defaultFall = defaultRise.map (fun x => -x) ∧
      defaultRise.head? = some 0 ∧ defaultRise.tail.reverse = defaultRise.tail ∧
      defaultRise.tail.all (fun x => decide (0 < x ∧ x ≤ 127)) = true ∧
      (List.range 128).filter (fun k => decide (defaultRise[k]? = some 127)) =
        [61, 62, 63, 64, 65, 66, 67] := ⟨rfl, rfl, rfl, rfl, rfl, rfl⟩

/-- R72: truncating 8192 - s * 8192 and 8192 + s * 8192 - 1 for s = 0.4 gives the literal bounds. -/
theorem test_bounds_from_effect_strength :
    ((8192 * params.effectDen - params.effectNum * 8192) / params.effectDen : Nat) = params.depthMin ∧
      ((8192 * params.effectDen + params.effectNum * 8192 - params.effectDen) / params.effectDen : Nat)
        = params.depthMax := by decide

/-! ### Decode: words written out bit by bit from R46 to R48 -/

theorem test_decode_selector_00 : decode [0b00000000#8] = .ok (.gateMod Level.low) := by decide
theorem test_decode_selector_10 : decode [0b00000010#8] = .ok (.gateMod Level.high) := by decide
theorem test_decode_selector_01 : decode [0b00000001#8] = .ok .gateNeutral := by decide
theorem test_decode_selector_11 : decode [0b00000011#8] = .ok .gateIdle := by decide
theorem test_decode_message_8598 :
    decode [0b11100000#8, 0b00010110#8, 0b01000011#8] = .ok (.encode 8598#14) := by decide
theorem test_decode_word_11428 :
    decodeTableWord 24 0b111000000010010001011001 = some (.encode 11428#14) := by decide
theorem test_decode_refuses_selector_bit : decode [0b00000100#8] = .error .notASelector := by decide
theorem test_decode_refuses_high_bit : decode [0xE0#8, 0x00#8, 0x80#8] = .error .notAMessage := by decide
theorem test_decode_refuses_status : decode [0xE1#8, 0x00#8, 0x40#8] = .error .notAMessage := by decide
theorem test_decode_refuses_length : decode [0xE0#8, 0x00#8] = .error .wrongLength := by decide
theorem test_always_has_no_encoding : Sys2Proof.encode .advance = none := by decide

/-! ### One operation each (95_test_vectors.md part 2) -/

/-- 2.5: raw 700 gives Period 7158. -/
theorem test_readPeriod :
    seen (exec .readPeriod (at' 0 1 0 [⟨700, 0, 0⟩])) (fun s => s.wires.period) = some 7158#14 := by
  decide
/-- 2.5: raw 1023 gives Period 10000. -/
theorem test_readPeriod_top :
    seen (exec .readPeriod (at' 0 1 0 [⟨1023, 0, 0⟩])) (fun s => s.wires.period) = some 10000#14 := by
  decide
/-- 2.5: raw 1022 gives Depth 254. -/
theorem test_readDepth :
    seen (exec .readDepth (at' 0 1 0 [⟨0, 1022, 0⟩])) (fun s => s.wires.depth) = some 254#8 := by decide
/-- 2.5: raw 5 is the first that gives Depth 1. -/
theorem test_readDepth_first :
    seen (exec .readDepth (at' 0 1 0 [⟨0, 5, 0⟩])) (fun s => s.wires.depth) = some 1#8 := by decide
/-- 2.1: PHASE 192 gives sample -127. -/
theorem test_lookup :
    (lookup defaultWave (at' 192 1 0 [])).wires.sample.toInt = -127 := by decide
/-- 2.1: PHASE 0 gives sample 0. -/
theorem test_lookup_zero :
    seen (exec .lookup (at' 0 1 0 [])) (fun s => s.wires.sample.toInt) = some 0 := by decide
/-- 2.2: 255 times -128 is -32640. -/
theorem test_mult :
    seen (exec .mult (mid { Wires.idle with depth := 255#8, sample := BitVec.ofInt 8 (-128) }))
      (fun s => s.wires.raw.toInt) = some (-32640) := by decide
/-- R65: MAP(0, -32768, 32767, 4915, 11467) = 8191. -/
theorem test_map :
    seen (exec (.map 0 (-32768) 32767 4915 11467) State.reset) (fun s => s.wires.mapResult)
      = some 8191 := by decide
/-- R9: tdiv truncates toward zero, so MAP(-1, 0, 2, 0, 1) = tdiv(-1, 2) = 0. -/
theorem test_map_negative :
    seen (exec (.map (-1) 0 2 0 1) State.reset) (fun s => s.wires.mapResult) = some 0 := by decide
/-- 2.2: depth 255, sample 16 gives cv 8598. -/
theorem test_compute :
    seen (exec .compute (mid { Wires.idle with depth := 255#8, sample := 16#8 }))
      (fun s => (s.wires.raw.toInt, s.wires.cv)) = some (4080, 8598#14) := by decide
/-- 2.2: depth 1, sample -1 gives cv 8190. -/
theorem test_compute_below :
    seen (exec .compute (mid { Wires.idle with depth := 1#8, sample := 0xFF#8 }))
      (fun s => s.wires.cv) = some 8190#14 := by decide
/-- R74: the sampled level. -/
theorem test_sampleSw :
    seen (exec .sampleSw (at' 0 0 0 [⟨0, 0, 1⟩])) (fun s => s.wires.sw) = some 1#1 := by decide
/-- 2.3: cv 8598 with BRIGHT 77: E0 16 43 and BRIGHT 143. -/
theorem test_gateMod :
    seen (exec (.gateMod 1) (mid { Wires.idle with cv := 8598#14 })) (fun s => (s.tx, s.bright))
      = some ([0xE0#8, 0x16#8, 0x43#8], 143#8) := by decide
/-- 2.3: the neutral message and BRIGHT 0. -/
theorem test_gateNeutral :
    seen (exec .gateNeutral (mid { Wires.idle with cv := 8598#14 })) (fun s => (s.tx, s.bright))
      = some ([0xE0#8, 0x00#8, 0x40#8], 0#8) := by decide
/-- 2.3: nothing, and BRIGHT stays 77. -/
theorem test_gateIdle :
    seen (exec .gateIdle (mid { Wires.idle with cv := 8598#14 })) (fun s => (s.tx, s.bright))
      = some ([], 77#8) := by decide
/-- 2.4: 11467 is E0 4B 59. -/
theorem test_encode :
    seen (exec (.encode 11467#14) State.reset) (fun s => s.tx) = some [0xE0#8, 0x4B#8, 0x59#8] := by
  decide
/-- 2.5: FEEDBACK(11428) = 253. -/
theorem test_feedback :
    seen (exec .feedback (mid { Wires.idle with cv := 11428#14 }))
      (fun s => (s.wires.brightness, s.bright)) = some (253#8, 77#8) := by decide
/-- R94: wait_us = period. -/
theorem test_wait :
    seen (exec .wait (mid { Wires.idle with period := 5495#14 })) (fun s => s.wires.waitUs)
      = some 5495#14 := by decide
/-- R79: PREV_SW takes the sampled level. -/
theorem test_updatePrev :
    seen (exec .updatePrev { mid { Wires.idle with sw := 1#1 } with prevSw := 0#1 })
      (fun s => s.prevSw) = some 1#1 := by decide
/-- 2.1: PHASE 255 becomes 0. -/
theorem test_advance_wraps : seen (exec .advance (at' 255 1 0 [])) (fun s => s.phase) = some 0#8 := by
  decide

/-! ### Whole iterations (95_test_vectors.md part 3) -/

/-- P1, n = 5: PHASE 5, PREV_SW 0, BRIGHT 139 give E0 16 43, bright 143, wait 1000. -/
theorem test_iterate_P1_5 :
    (fun s : State => (s.trace, s.phase, s.prevSw)) (iterate defaultWave (at' 5 0 139 [⟨0, 1023, 0⟩]))
      = ([⟨[0xE0#8, 0x16#8, 0x43#8], 143#8, 1000#14⟩], 6#8, 0#1) := by decide
/-- P7, n = 3: the edge with raw_depth 700 and raw_rate 2 gives E0 00 40, bright 0, wait 1017. -/
theorem test_iterate_P7_3 :
    seen (step (at' 3 0 127 [⟨2, 700, 1⟩])) (fun s => (s.trace.map LoopOut.tx, s.bright, s.prevSw))
      = some ([[0xE0#8, 0x00#8, 0x40#8]], 0#8, 1#1) := by decide
/-- P3, n = 255: the core with depth 255 at the top of the ROM gives E0 32 3F, and PHASE wraps. -/
theorem test_iterateCore_P3_255 :
    (fun s : State => (s.tx, s.phase, s.bright))
        (iterateCore defaultWave { at' 255 0 0 [] with coreInputs := [⟨255, 0⟩] })
      = ([0xE0#8, 0x32#8, 0x3F#8], 0#8, 0#8) := by decide
/-- P5, n = 1: an idle core iteration emits nothing. -/
theorem test_iterateCore_idle :
    seen (exec .iterateCore { at' 1 1 0 [] with coreInputs := [⟨255, 1⟩] })
      (fun s => (s.tx, s.phase, s.prevSw)) = some ([], 2#8, 1#1) := by decide

/-- P5: with PREV_SW_RESET = 0 a switch that is off at iteration 0 gives E0 00 40. -/
theorem test_stimulus_P5 :
    seen (step (State.ofStimulus 0 0 [.rep 2 (.it stimulusOff none none), .it stimulusOn none none]))
      (fun s => (s.tx, s.inputs)) = some ([0xE0#8, 0x00#8, 0x40#8], [⟨0, 1023, 1⟩, ⟨0, 1023, 0⟩]) := by
  decide
/-- R56: two copies of a core line with the default depth. -/
theorem test_stimulus_core :
    (State.ofStimulus 1 0 [.rep 2 (.itc stimulusOn none)]).coreInputs = [⟨255, 0⟩, ⟨255, 0⟩] := by
  decide
/-- P4: the receiver reads 8191 and the neutral 8192 from TX. -/
theorem test_parseTx :
    parseTx [0xE0#8, 0x7F#8, 0x3F#8, 0xE0#8, 0x00#8, 0x40#8] = some [8191#14, 8192#14] := by decide

/-! ### The host's two questions, on a word each -/

/-- Selector 01 right after reset: the edge. -/
theorem test_fetch_neutral :
    seen (step (State.reset.withFetchWord 8 0b01)) (fun s => s.tx)
      = some [0xE0#8, 0x00#8, 0x40#8] := by decide
/-- Selector 10 right after reset: the sample at PHASE 0 is 0, so 8191 is emitted. -/
theorem test_fetch_mod :
    seen (step (State.reset.withFetchWord 8 0b10)) (fun s => s.tx)
      = some [0xE0#8, 0x7F#8, 0x3F#8] := by decide
/-- A message word right after reset: ENCODE alone, no iteration. -/
theorem test_fetch_encode :
    seen (step (State.reset.withFetchWord 24 0xE01643)) (fun s => (s.tx, s.phase, s.slot))
      = some ([0xE0#8, 0x16#8, 0x43#8], 0#8, []) := by decide
/-- A word that is no encoding is refused by name. -/
theorem test_fetch_refused :
    (match step (State.reset.withFetchWord 24 0xF00000) with
      | .refused r => decide (r = .notAnEncoding .notAMessage)
      | _ => false) = true := by decide

/-! ### Witnesses: concrete states and operands that meet the hypotheses of the statements -/

/-- Two active records, then an inactive one, with different analog samples. -/
def records : List LoopIn := [⟨0, 1023, 0⟩, ⟨511, 512, 0⟩, ⟨1023, 5, 1⟩]

/-- The records of the core that correspond to `records` (R90: 1023, 512, 5 give 255, 127, 1). -/
def coreRecords : List CoreIn := [⟨255, 0⟩, ⟨127, 0⟩, ⟨1, 1⟩]

/-- DecodeOfEncodeIsTheOperation, EncodeOfDecodeIsTheBytes, at the greatest value. -/
theorem witness_round_trip :
    Sys2Proof.encode (.encode 16383#14) = some [0xE0#8, 0x7F#8, 0x7F#8] ∧
      decode [0xE0#8, 0x7F#8, 0x7F#8] = .ok (.encode 16383#14) := by decide

/-- SelectorMapIsTotal: levels for each clause. -/
theorem witness_selector_levels :
    ((0#1 : Level) = 0#1) ∧ ((0#1 : Level) = 0#1 ∧ (1#1 : Level) = 1#1) ∧ ((1#1 : Level) = 1#1) := by
  decide

/-- ReadPeriodResult: a state with a smaller and one with a larger raw sample. -/
theorem witness_larger_rate :
    exec .readPeriod (at' 0 1 0 [⟨1023, 0, 0⟩]) = .next (readPeriod (at' 0 1 0 [⟨1023, 0, 0⟩])) ∧
      (at' 0 1 0 [⟨1022, 0, 0⟩]).currentIn.rawRate.toNat
        < (at' 0 1 0 [⟨1023, 0, 0⟩]).currentIn.rawRate.toNat := ⟨rfl, by decide⟩

/-- LookupResult: PHASE 0 with a legal WAVE. -/
theorem witness_lookup_zero : (at' 0 1 0 []).phase = 0#8 ∧ defaultWave.wf = true := by decide

/-- MultResult: each operand 0, and a sample of each sign. -/
theorem witness_mult :
    (mid { Wires.idle with sample := 0x80#8 }).wires.depth = 0#8 ∧
      (mid { Wires.idle with depth := 255#8 }).wires.sample = 0#8 ∧
      (mid { Wires.idle with sample := 0x80#8 }).wires.sample.toInt ≤ 0 ∧
      0 ≤ (mid { Wires.idle with sample := 0x7F#8 }).wires.sample.toInt := by decide

/-- MapResult and MapKeepsBounds: the operands of COMPUTE, at both ends of the source range. -/
theorem witness_map :
    (Instr.map (-32768) (-32768) 32767 4915 11467).wf = true ∧ (-32768 : Int) < 32767 ∧
      (4915 : Int) ≤ 11467 ∧ (-32768 : Int) ≤ -32768 ∧ (-32768 : Int) ≤ 32767 ∧
      (32767 : Int) ≤ 32767 := by decide

/-- ComputeRangeAndOrder: two products in order. -/
theorem witness_products_in_order :
    (productOf 255#8 0x80#8).toInt ≤ (productOf 255#8 127#8).toInt := by decide

/-- ZeroDepthIsOneBelowNeutral: depth 0 with a sample that is not, and raw = -1. -/
theorem witness_zero_depth :
    (mid { Wires.idle with sample := 127#8 }).wires.depth = 0#8 ∧
      exec .compute (mid { Wires.idle with sample := 127#8 })
        = .next (compute (mid { Wires.idle with sample := 127#8 })) ∧
      (0xFFFF#16 : Product).toInt = -1 := ⟨rfl, rfl, by decide⟩

/-- GateModResult and FeedbackResult: both ends of FEEDBACK's domain. -/
theorem witness_feedback_domain :
    4915 ≤ (mid { Wires.idle with cv := 4915#14 }).wires.cv.toNat ∧
      (mid { Wires.idle with cv := 4915#14 }).wires.cv.toNat ≤ 11467 ∧
      4915 ≤ (mid { Wires.idle with cv := 11467#14 }).wires.cv.toNat ∧
      (mid { Wires.idle with cv := 11467#14 }).wires.cv.toNat ≤ 11467 := by decide

/-- EncodeIsInjective: two executions from one state, with equal streams. -/
theorem witness_encode_twice :
    exec (.encode 8598#14) State.reset = .next (encodeValue 8598#14 State.reset) ∧
      (encodeValue 8598#14 State.reset).tx = (encodeValue 8598#14 State.reset).tx := ⟨rfl, rfl⟩

/-- AttainedBrightness: a state for each named value, and its FEEDBACK. -/
theorem witness_attained (cv : ControlValue) :
    (mid { Wires.idle with cv := cv }).wires.cv = cv ∧
      exec .feedback (mid { Wires.idle with cv := cv })
        = .next (feedback (mid { Wires.idle with cv := cv })) := ⟨rfl, rfl⟩

/-- IterateIsTheStepOfTheSpec: the state of P1, n = 5, whose cv in the default table is 8598, and the state
of P1, n = 0, whose cv in the WAVE of this hardware is 8191. -/
theorem witness_iterate :
    (⟨0, 1023, 0⟩ : LoopIn) = (at' 5 0 139 [⟨0, 1023, 0⟩]).currentIn ∧
      8598 = controlValue ((1023#10 : RawSample).toNat * 255 / 1023)
        (memRead defaultWave (at' 5 0 139 [⟨0, 1023, 0⟩]).phase).toInt ∧
      (⟨0, 1023, 0⟩ : LoopIn) = (at' 0 1 0 [⟨0, 1023, 0⟩]).currentIn ∧
      8191 = controlValue ((1023#10 : RawSample).toNat * 255 / 1023)
        (memRead wave (at' 0 1 0 [⟨0, 1023, 0⟩]).phase).toInt := by
  decide

/-- IterateCoreIsTheCoreStepOfTheSpec: the same for the core. -/
theorem witness_iterate_core :
    (⟨255, 0⟩ : CoreIn) = { at' 5 0 0 [] with coreInputs := [⟨255, 0⟩] }.currentCoreIn ∧
      8598 = controlValue (255#8 : Depth).toNat (memRead defaultWave (at' 5 0 0 []).phase).toInt ∧
      (⟨255, 0⟩ : CoreIn) = { at' 0 1 0 [] with coreInputs := [⟨255, 0⟩] }.currentCoreIn ∧
      8191 = controlValue (255#8 : Depth).toNat (memRead wave (at' 0 1 0 []).phase).toInt := by decide

/-- WholeLoopAndCoreAgree: three iterations from PHASE 254. -/
theorem witness_agree :
    (at' 254 1 0 records).slot = [] ∧
      (∀ k < 3,
        ({ at' 254 1 0 [] with coreInputs := coreRecords }.coreRecord k).depth.toNat
          = ((at' 254 1 0 records).loopRecord k).rawDepth.toNat * 255 / 1023 ∧
        ({ at' 254 1 0 [] with coreInputs := coreRecords }.coreRecord k).sw
          = ((at' 254 1 0 records).loopRecord k).sw) := by decide

/-- RunDeliversTheTrace, OneMessagePerActiveSampleAndPerEdge and StepIsOneIteration: a state between
iterations. -/
theorem witness_between_iterations :
    (at' 254 1 0 records).slot = [] ∧ (at' 254 1 0 records).wires = Wires.idle := ⟨rfl, rfl⟩

/-- GateContract (a), (b): an edge, and an inactive sample after it. -/
theorem witness_contract_edge :
    (at' 5 0 139 [⟨2, 700, 1⟩, ⟨0, 0, 1⟩]).slot = [] ∧
      step (at' 5 0 139 [⟨2, 700, 1⟩, ⟨0, 0, 1⟩])
        = .next (iterate wave (at' 5 0 139 [⟨2, 700, 1⟩, ⟨0, 0, 1⟩])) ∧
      (at' 5 0 139 [⟨2, 700, 1⟩, ⟨0, 0, 1⟩]).prevSw = Level.low ∧
      (at' 5 0 139 [⟨2, 700, 1⟩, ⟨0, 0, 1⟩]).currentIn.sw = Level.high ∧
      (iterate wave (at' 5 0 139 [⟨2, 700, 1⟩, ⟨0, 0, 1⟩])).currentIn.sw = Level.high :=
  ⟨rfl, rfl, rfl, rfl, by decide⟩

/-- GateContract (c): an active sample. -/
theorem witness_contract_active :
    (at' 5 1 0 [⟨0, 1023, 0⟩]).slot = [] ∧
      step (at' 5 1 0 [⟨0, 1023, 0⟩]) = .next (iterate wave (at' 5 1 0 [⟨0, 1023, 0⟩])) ∧
      (at' 5 1 0 [⟨0, 1023, 0⟩]).currentIn.sw = Level.low := ⟨rfl, rfl, rfl⟩

/-- GateContract (d): an inactive sample after an inactive one. -/
theorem witness_contract_idle :
    step (at' 5 1 0 [⟨0, 1023, 1⟩]) = .next (iterate wave (at' 5 1 0 [⟨0, 1023, 1⟩])) ∧
      (at' 5 1 0 [⟨0, 1023, 1⟩]).prevSw = Level.high ∧
      (at' 5 1 0 [⟨0, 1023, 1⟩]).currentIn.sw = Level.high := ⟨rfl, rfl, rfl⟩

/-- RateAffectsOnlyTheWait: two iterations that differ in the raw rate sample. -/
theorem witness_rate :
    exec .iterate { at' 5 0 0 [] with inputs := (⟨0, 1023, 0⟩ : LoopIn) :: records }
        = .next (iterate wave { at' 5 0 0 [] with inputs := ⟨0, 1023, 0⟩ :: records }) ∧
      exec .iterate { at' 5 0 0 [] with
          inputs := { (⟨0, 1023, 0⟩ : LoopIn) with rawRate := 1023 } :: records }
        = .next (iterate wave { at' 5 0 0 [] with inputs := ⟨1023, 1023, 0⟩ :: records }) := ⟨rfl, rfl⟩

/-- StepRunsTheDecodedOperation: an empty slot, bytes that decode, bytes that do not. -/
theorem witness_slot :
    State.reset.slot = [] ∧
      (State.reset.setSlot [0xE0#8, 0x16#8, 0x43#8]).slot ≠ [] ∧
      decode (State.reset.setSlot [0xE0#8, 0x16#8, 0x43#8]).slot = .ok (.encode 8598#14) ∧
      (State.reset.setSlot [0xE0#8]).slot ≠ [] ∧
      decode (State.reset.setSlot [0xE0#8]).slot = .error .notASelector := by decide

/-- PlacedWordIsFetched: a selector and a message. -/
theorem witness_words :
    decodeTableWord 8 0b11 = some .gateIdle ∧
      decodeTableWord 24 0xE07F7F = some (.encode 16383#14) := by decide

/-- RomIsNeverWritten: two different states at one PHASE, an operation, a step, and LOOKUP at index 192
before and after it. -/
theorem witness_rom :
    (at' 192 0 0 records).phase = (mid Wires.idle |>.setPhase 192#8).phase ∧
      exec .lookup (at' 192 0 0 records) = .next (lookup wave (at' 192 0 0 records)) ∧
      exec .lookup (mid Wires.idle |>.setPhase 192#8)
        = .next (lookup wave (mid Wires.idle |>.setPhase 192#8)) ∧
      exec .iterate (at' 5 0 0 records) = .next (iterate wave (at' 5 0 0 records)) ∧
      step (at' 5 0 0 records) = .next (iterate wave (at' 5 0 0 records)) ∧
      exec .lookup { iterate wave (at' 5 0 0 records) with phase := 192#8 }
        = .next (lookup wave { iterate wave (at' 5 0 0 records) with phase := 192#8 }) :=
  ⟨rfl, rfl, rfl, rfl, rfl, rfl⟩

/-- WarmResetStartsANewRun: LOOKUP at index 192 before and after a warm reset. -/
theorem witness_warm_reset :
    exec .lookup { at' 5 0 7 records with phase := 192#8 }
        = .next (lookup wave { at' 5 0 7 records with phase := 192#8 }) ∧
      exec .lookup { (at' 5 0 7 records).warmReset 1#1 0#8 with phase := 192#8 }
        = .next (lookup wave { (at' 5 0 7 records).warmReset 1#1 0#8 with phase := 192#8 }) :=
  ⟨rfl, rfl⟩

/-- OnlyTheirOperationsWriteTheRegisters: PHASE, PREV_SW, BRIGHT and TX each change. -/
theorem witness_register_writes :
    exec .iterate (at' 5 0 7 [⟨2, 700, 1⟩]) = .next (iterate wave (at' 5 0 7 [⟨2, 700, 1⟩])) ∧
      (iterate wave (at' 5 0 7 [⟨2, 700, 1⟩])).phase ≠ (at' 5 0 7 [⟨2, 700, 1⟩]).phase ∧
      (iterate wave (at' 5 0 7 [⟨2, 700, 1⟩])).prevSw ≠ (at' 5 0 7 [⟨2, 700, 1⟩]).prevSw ∧
      (iterate wave (at' 5 0 7 [⟨2, 700, 1⟩])).bright ≠ (at' 5 0 7 [⟨2, 700, 1⟩]).bright ∧
      (iterate wave (at' 5 0 7 [⟨2, 700, 1⟩])).tx ≠ (at' 5 0 7 [⟨2, 700, 1⟩]).tx :=
  ⟨rfl, by decide, by decide, by decide, by decide⟩

/-- FirstIterationAfterReset, PREV_SW_RESET = 1 and the switch off for two iterations, in the default table
and in the WAVE of this hardware. -/
theorem witness_first_off :
    defaultWave.wf = true ∧ wave.wf = true ∧
      ∀ k < 2, levelAt { State.resetWith 1 0 with
        inputs := [⟨0, 0, 1⟩, ⟨0, 0, 1⟩] } k = Level.high := by decide

/-- FirstIterationAfterReset: the switch on, and PREV_SW_RESET = 0 with the switch off. -/
theorem witness_first_on_and_edge :
    levelAt { State.resetWith 1 0 with inputs := [⟨0, 1023, 0⟩] } 0 = Level.low ∧
      levelAt { State.resetWith 0 0 with inputs := [⟨0, 1023, 1⟩] } 0 = Level.high ∧
      wave.wf = true := by decide

/-- StepKeepsTheInvariant: a state that meets the invariant, and its step. -/
theorem witness_inv :
    Inv { State.reset with prevSw := 0#1, inputs := records } ∧
      step { State.reset with prevSw := 0#1, inputs := records }
        = .next (iterate wave { State.reset with prevSw := 0#1, inputs := records }) := by
  refine ⟨⟨rfl, rfl, ⟨rfl, ?_⟩, rfl, ?_⟩, rfl⟩
  · intro k b h; simp [State.reset] at h
  · intro o h; simp [State.reset] at h

/-- TxIsWholeMessages and StepKeepsDarkWhenOff: an active state at the greatest brightness, and a dark
inactive one. -/
theorem witness_dark :
    (at' 64 0 253 records).slot = [] ∧ DarkWhenOff (at' 64 0 253 records) ∧
      step (at' 64 0 253 records) = .next (iterate wave (at' 64 0 253 records)) ∧
      DarkWhenOff (at' 64 1 0 records) :=
  ⟨rfl, ⟨by decide, by decide⟩, rfl, ⟨by decide, by decide⟩⟩

/-- TestablePropertiesHold: legal WAVEs, an edge, an active sample, and an inactive one without an edge. -/
theorem witness_testable_properties :
    defaultWave.wf = true ∧ wave.wf = true ∧ (at' 5 0 139 [⟨2, 700, 1⟩]).slot = [] ∧
      (at' 5 0 139 [⟨2, 700, 1⟩]).prevSw = Level.low ∧
      (at' 5 0 139 [⟨2, 700, 1⟩]).currentIn.sw = Level.high ∧
      (at' 5 1 0 [⟨0, 1023, 0⟩]).currentIn.sw = Level.low ∧
      (at' 5 1 0 [⟨0, 1023, 1⟩]).prevSw = Level.high ∧
      (at' 5 1 0 [⟨0, 1023, 1⟩]).currentIn.sw = Level.high := by decide

end Sys2Proof.Tests
end

section
/-! The selector map (R47) and the assembly of the two septets (R49). -/
namespace Sys2Proof.Encoding

open Sys2Proof.Machine

/-! ### The selector map -/

/-- Settles O6, by the selection stated on levels (`gateAction_selectorOf`). -/
theorem selectorMapIsTotal : Obligations.SelectorMapIsTotal := by
  intro prev cur
  rw [gateAction_selectorOf]
  refine ⟨?mod, ?neutral, ?idle⟩
  case mod =>
    rintro rfl
    rfl
  case neutral =>
    rintro ⟨rfl, rfl⟩
    rfl
  case idle =>
    rintro ⟨rfl, rfl⟩
    rfl

/-! ### The septets of a value -/

/-- A septet's byte has the septet's own value: the extension puts a zero in bit 7 (R49, R84). -/
theorem septetByte_toNat (x : Septet) : (septetByte x).toNat = x.toNat :=
  BitVec.toNat_setWidth_of_le (by decide)

/-- Masking with 0x7F keeps the remainder modulo 128. -/
theorem and_septetMask (n : Nat) : n &&& 0x7F = n % 128 :=
  Nat.and_two_pow_sub_one_eq_mod n 7

/-- The bits of a value above bit 6 fit in a septet, so the mask in `high` removes nothing (R49). -/
theorem value_shiftRight_lt (v : ControlValue) : v.toNat >>> 7 < 128 := by
  have hv : v.toNat < 16384 := v.isLt
  rw [Nat.shiftRight_eq_div_pow]
  omega

/-- The high septet is the value shifted right by 7 (R49). -/
theorem highOf_toNat_shiftRight (v : ControlValue) : (highOf v).toNat = v.toNat >>> 7 := by
  rw [highOf_toNat, Nat.shiftRight_eq_div_pow]

/-- The receiver's value is `(high << 7) | low` on plain numbers (R49). -/
theorem valueOf_toNat_or (low high : Septet) :
    (valueOf low high).toNat = (high.toNat <<< 7) ||| low.toNat :=
  BitVec.toNat_append high low

/-- The receiver reconstructs every value from its two septets (R49). -/
theorem valueOf_lowOf_highOf (v : ControlValue) : valueOf (lowOf v) (highOf v) = v := by
  apply BitVec.eq_of_toNat_eq
  rw [valueOf_toNat, lowOf_toNat, highOf_toNat]
  omega

/-- Settles O7: each field on plain numbers, and the reconstruction from both. -/
theorem septetsAreTheBitFields : Obligations.SeptetsAreTheBitFields := by
  intro v
  refine ⟨?low, ?high, ?unmasked, ?joined, valueOf_lowOf_highOf v,
    septetByte_toNat _, septetByte_toNat _⟩
  case low => rw [lowOf_toNat, and_septetMask]
  case high =>
    rw [highOf_toNat_shiftRight, and_septetMask, Nat.mod_eq_of_lt (value_shiftRight_lt v)]
  case unmasked => exact Nat.le_of_lt_succ (value_shiftRight_lt v)
  case joined => rw [← valueOf_toNat_or, valueOf_lowOf_highOf]

end Sys2Proof.Encoding
end

section
/-! The phase accumulator (R61, R63) and the waveform lookup (R59). -/
namespace Sys2Proof.Wavetable

open Sys2Proof.Machine Sys2Proof.Safety

/-! ### ADVANCE -/

/-- The increment of the accumulator on plain numbers: it wraps from 255 to 0 (R61). -/
theorem advance_phase_toNat (s : State) : (advance s).phase.toNat = (s.phase.toNat + 1) % 256 :=
  BitVec.toNat_add s.phase 1#8

/-- Settles O29, by the increment on plain numbers; every other field is the one `setPhase` keeps. -/
theorem advanceResult : Obligations.AdvanceResult :=
  fun s => ⟨advance s, rfl, advance_phase_toNat s, rfl⟩

/-! ### Repeated execution -/

/-- Executing an operation `n` times is iterating its state function, when it always answers a next
state. -/
theorem execMany_eq_iterate {i : Instr} {f : State → State} (hexec : ∀ s, exec i s = .next (f s))
    (n : Nat) (s : State) : execMany i n s = .next (f^[n] s) := by
  induction n generalizing s with
  | zero => rfl
  | succ n ih => rw [execMany, hexec, Function.iterate_succ_apply]; exact ih (f s)

/-- `k` increments add `k` to PHASE and write nothing else (R63). -/
theorem advance_iterate (k : Nat) (s : State) :
    advance^[k] s = s.setPhase (s.phase + BitVec.ofNat 8 k) := by
  induction k with
  | zero => simp [State.setPhase]
  | succ k ih =>
    rw [Function.iterate_succ_apply', ih, BitVec.ofNat_add, ← BitVec.add_assoc]
    rfl

/-- `k` executions of ADVANCE add `k` to PHASE and write nothing else (R63). -/
theorem execMany_advance (k : Nat) (s : State) :
    execMany .advance k s = .next (s.setPhase (s.phase + BitVec.ofNat 8 k)) := by
  rw [execMany_eq_iterate (f := advance) (fun _ => rfl), advance_iterate]

/-- Settles O30: the closed form of `k` executions on plain numbers, and at `k = 256` the added value
is 0 in 8 bits. -/
theorem advanceHasPeriod256 : Obligations.AdvanceHasPeriod256 := by
  refine ⟨fun k s => ⟨_, execMany_advance k s, ?phase, rfl⟩, fun s => ?period⟩
  case phase =>
    rw [State.setPhase_phase, BitVec.toNat_add, BitVec.toNat_ofNat, Nat.add_mod_mod]
  case period =>
    have hwrap : s.phase + BitVec.ofNat 8 256 = s.phase := BitVec.add_zero s.phase
    rw [execMany_advance, hwrap]
    rfl

/-! ### LOOKUP -/

/-- At PHASE 0 the entry read from a legal WAVE is 0 (R7, R59). -/
theorem memRead_toInt_of_phase_zero {w : Wave} {s : State} (hphase : s.phase = 0#8)
    (hw : w.wf = true) : (memRead w s.phase).toInt = 0 := by
  rw [hphase, memRead_zero hw]
  rfl

/-- Settles O10: the range is an entry's own (`memRead_bounds`), and this hardware's WAVE is legal. -/
theorem lookupResult : Obligations.LookupResult := by
  refine ⟨fun s => ?operation, fun w s => ?unit⟩
  case operation =>
    obtain ⟨hlow, hhigh⟩ := memRead_bounds wave s.phase
    exact ⟨lookup wave s, rfl, rfl, hlow, hhigh,
      fun hphase => memRead_toInt_of_phase_zero hphase wave_wf⟩
  case unit =>
    obtain ⟨hlow, hhigh⟩ := memRead_bounds w s.phase
    exact ⟨rfl, hlow, hhigh, memRead_toInt_of_phase_zero⟩

end Sys2Proof.Wavetable
end

section
/-! The depth-modulated multiplier: the product (R66), zero depth (R69) and the other reading of
DEPTH_MIN (R73). -/
namespace Sys2Proof.Modulator

open Sys2Proof.Machine

/-! ### The product -/

/-- Zero depth gives the zero product, whatever the sample (R66, R69). -/
theorem productOf_zero_depth (x : Sample) : productOf 0#8 x = 0#16 := by
  apply BitVec.eq_of_toInt_eq
  rw [productOf_toInt]
  exact zero_mul x.toInt

/-- A zero sample gives the zero product, whatever the depth (R66). -/
theorem productOf_zero_sample (d : Depth) : productOf d 0#8 = 0#16 := by
  apply BitVec.eq_of_toInt_eq
  rw [productOf_toInt]
  exact mul_zero (d.toNat : Int)

/-- The product lies in the range of R66, so 16 signed bits hold it. -/
theorem productOf_bounds (d : Depth) (x : Sample) :
    -32640 ≤ (productOf d x).toInt ∧ (productOf d x).toInt ≤ 32385 := by
  rw [productOf_toInt]
  exact product_bounds d x

/-- A sample that is not positive gives a product that is not positive: depth is unsigned (R66). -/
theorem productOf_nonpos (d : Depth) {x : Sample} (hx : x.toInt ≤ 0) :
    (productOf d x).toInt ≤ 0 := by
  rw [productOf_toInt]
  exact mul_nonpos_of_nonneg_of_nonpos (Int.natCast_nonneg d.toNat) hx

/-- A sample that is not negative gives a product that is not negative (R66). -/
theorem productOf_nonneg (d : Depth) {x : Sample} (hx : 0 ≤ x.toInt) :
    0 ≤ (productOf d x).toInt := by
  rw [productOf_toInt]
  exact mul_nonneg (Int.natCast_nonneg d.toNat) hx

/-- MULT leaves the product of its two operands in `raw`. -/
theorem mult_raw (s : State) :
    (mult s).wires.raw = productOf s.wires.depth s.wires.sample := rfl

/-- Settles O11: MULT writes `productOf` of its two operands to `raw` and nothing else, and each
clause is that function's own. -/
theorem multResult : Obligations.MultResult := by
  intro s
  obtain ⟨hlow, hhigh⟩ := productOf_bounds s.wires.depth s.wires.sample
  refine ⟨mult s, rfl, productOf_toInt _ _, hlow, hhigh, ?zeroDepth, ?zeroSample,
    productOf_nonpos s.wires.depth, productOf_nonneg s.wires.depth, rfl⟩
  case zeroDepth =>
    intro hdepth
    rw [mult_raw, hdepth, productOf_zero_depth]
    rfl
  case zeroSample =>
    intro hsample
    rw [mult_raw, hsample, productOf_zero_sample]
    rfl

/-! ### Zero depth -/

/-- COMPUTE leaves the mapped product in `cv`. -/
theorem compute_cv (s : State) :
    (compute s).wires.cv = controlOf params (productOf s.wires.depth s.wires.sample) := rfl

/-- COMPUTE answers its state function, so a next state it gives is that one. -/
theorem eq_compute_of_exec {s t : State} (h : exec .compute s = .next t) : t = compute s :=
  (Host.Outcome.next.inj h).symm

/-- The products that COMPUTE maps to 8191: the ten from 0 on (R69). -/
theorem controlOf_eq_8191_iff (raw : Product) :
    (controlOf params raw).toNat = 8191 ↔ 0 ≤ raw.toInt ∧ raw.toInt ≤ 9 := by
  have hcv := controlOf_toNat raw
  omega

/-- The products that COMPUTE maps to NEUTRAL: the ten after those (R69). -/
theorem controlOf_eq_8192_iff (raw : Product) :
    (controlOf params raw).toNat = 8192 ↔ 10 ≤ raw.toInt ∧ raw.toInt ≤ 19 := by
  have hcv := controlOf_toNat raw
  omega

/-- The product just below zero already gives 8190 (R69). -/
theorem controlOf_of_neg_one {raw : Product} (hraw : raw.toInt = -1) :
    (controlOf params raw).toNat = 8190 := by
  have hcv := controlOf_toNat raw
  omega

/-- The zero product is among those that give 8191 (R69). -/
theorem controlOf_zero : controlOf params 0#16 = 8191#14 :=
  BitVec.eq_of_toNat_eq ((controlOf_eq_8191_iff 0#16).2 (by decide))

/-- Settles O16: zero depth gives the zero product, and the floor of R68 is constant on ten products
each for 8191 and 8192. -/
theorem zeroDepthIsOneBelowNeutral : Obligations.ZeroDepthIsOneBelowNeutral := by
  refine ⟨?zeroDepth, fun raw => ⟨controlOf_eq_8191_iff raw, controlOf_eq_8192_iff raw,
    controlOf_of_neg_one⟩, by decide, by decide⟩
  case zeroDepth =>
    intro s t hdepth hexec
    rw [eq_compute_of_exec hexec, compute_cv, hdepth, productOf_zero_depth]
    exact controlOf_zero

/-! ### The other lower bound -/

/-- COMPUTE's map with DEPTH_MIN = 4916 on plain numbers: the target range is one step shorter (R73). -/
theorem controlOf_depthMin_4916_toNat (raw : Product) :
    (controlOf { params with depthMin := 4916 } raw).toNat
      = (4916 + (raw.toInt + 32768) * 6551 / 65535).toNat := by
  have hlow : (-32768 : Int) ≤ raw.toInt := BitVec.le_toInt raw
  have hhigh : raw.toInt < 32768 := BitVec.toInt_lt
  have hmap : mapInt raw.toInt (-32768) 32767 4916 11467
      = 4916 + (raw.toInt + 32768) * 6551 / 65535 := by
    rw [mapInt_of_mem (by decide) hlow (by decide)]
    norm_num
  have hcv : (controlOf { params with depthMin := 4916 } raw).toNat
      = (mapInt raw.toInt (-32768) 32767 4916 11467 % 16384).toNat := BitVec.toNat_ofInt ..
  rw [hcv, hmap]
  omega

/-- Settles O17: the map on plain numbers, at the zero product and at three exact products. -/
theorem otherLowerBoundReading : Obligations.OtherLowerBoundReading := by
  refine ⟨fun x => ?zeroDepth, ?top, ?bottom, ?aboveBottom⟩
  case zeroDepth =>
    rw [productOf_zero_depth, controlOf_depthMin_4916_toNat]
    rfl
  case top =>
    rw [controlOf_depthMin_4916_toNat, productOf_toInt]
    rfl
  case bottom =>
    rw [controlOf_depthMin_4916_toNat, productOf_toInt]
    rfl
  case aboveBottom =>
    rw [controlOf_depthMin_4916_toNat, productOf_toInt]
    rfl

end Sys2Proof.Modulator
end

section
/-! One iteration of the whole loop as a function of its input record (R98), and n of them as the
machine's run (R11). -/
namespace Sys2Proof.WholeLoop

open Sys2Proof.Machine Sys2Proof.Safety

/-! ### One iteration -/

/-- The ControlValue an iteration computes, from its Depth sample and the entry at the old PHASE (R98). -/
def iterationCv (w : Wave) (s : State) : ControlValue :=
  controlOf params (productOf (depthOf params s.currentIn.rawDepth) (memRead w s.phase))

/-- The computed ControlValue on plain numbers (R68, R90). -/
theorem iterationCv_toNat (w : Wave) (s : State) :
    (iterationCv w s).toNat =
      controlValue (s.currentIn.rawDepth.toNat * 255 / 1023) (memRead w s.phase).toInt := by
  rw [iterationCv, control_toNat, depthOf_toNat, Safety.depth]

/-- What an iteration does to every field of the state (R98). -/
theorem iterate_eq (w : Wave) (s : State) :
    iterate w s = { s with
      phase := s.phase + 1#8
      prevSw := s.currentIn.sw
      bright := gateBright s.prevSw s.currentIn.sw (iterationCv w s) s.bright
      tx := s.tx ++ gateBytes s.prevSw s.currentIn.sw (iterationCv w s)
      trace := s.trace ++ [{
        tx := gateBytes s.prevSw s.currentIn.sw (iterationCv w s)
        bright := gateBright s.prevSw s.currentIn.sw (iterationCv w s) s.bright
        waitUs := periodOf params s.currentIn.rawRate }]
      wires := Wires.idle
      inputs := s.inputs.tail
      iteration := s.iteration + 1 } := by
  obtain ⟨hphase, -, hbright, htx, htrace, hcoreTrace, hinputs, hcoreInputs, hiteration, hslot,
    hmsg, hsw, hperiod⟩ := gate_fields (beforeGate w s)
  rw [iterate, afterGate_eq, hphase, hbright, htx, htrace, hcoreTrace, hinputs, hcoreInputs,
    hiteration, hslot, hmsg, hsw, hperiod, beforeGate_eq]
  rfl

/-- An iteration leaves the sampled level in PREV_SW (R79). -/
theorem iterate_prevSw (w : Wave) (s : State) : (iterate w s).prevSw = s.currentIn.sw := by
  rw [iterate_eq]

/-- An iteration places nothing in the slot. -/
theorem iterate_slot (w : Wave) (s : State) : (iterate w s).slot = s.slot := by
  rw [iterate_eq]

/-- After an iteration the records to come are one nearer (R27). -/
theorem loopRecord_iterate (w : Wave) (s : State) (k : Nat) :
    (iterate w s).loopRecord k = s.loopRecord (k + 1) := by
  rw [iterate_eq, ← loopRecord_popInput]
  rfl

/-- After an iteration the levels to come are one nearer (R27). -/
theorem levelAt_iterate (w : Wave) (s : State) (k : Nat) :
    levelAt (iterate w s) k = levelAt s (k + 1) := by
  rw [levelAt, loopRecord_iterate, levelAt]

/-! ### The machine's steps -/

/-- With an empty slot the machine's step is one iteration in this hardware's WAVE (R11). -/
theorem step_of_slot_nil {s : State} (hslot : s.slot = []) : step s = .next (iterate wave s) := by
  unfold step
  rw [hslot]
  rfl

/-- With an empty slot the machine's run of `n` steps is `n` iterations (R11). -/
theorem run_of_slot_nil (n : Nat) {s : State} (hslot : s.slot = []) :
    Host.Core.run core n s = .next ((iterate wave)^[n] s) := by
  induction n generalizing s with
  | zero => exact run_zero s
  | succ n ih =>
    rw [run_succ_of_next n (step_of_slot_nil hslot), Function.iterate_succ_apply]
    exact ih ((iterate_slot wave s).trans hslot)

end Sys2Proof.WholeLoop
end

section
/-! The enable gate: UPDATE_PREV (R79), the gate's contract (R82) and the first iteration after reset
(R83). -/
namespace Sys2Proof.EnableGate

open Sys2Proof.Machine Sys2Proof.Safety Sys2Proof.WholeLoop

/-- Settles O28: UPDATE_PREV is the write of PREV_SW alone. -/
theorem updatePrevResult : Obligations.UpdatePrevResult := fun _ => rfl

/-! ### What an iteration emits, by the two levels (R80) -/

/-- While the level is active an iteration emits the message of its computed value (R76). -/
theorem iterate_tx_of_active (w : Wave) {s : State} (hsw : s.currentIn.sw = Level.low) :
    (iterate w s).tx = s.tx ++ message (iterationCv w s).toNat := by
  rw [iterate_eq]
  simp only [gateBytes, hsw, if_true, message, septetByte_lowOf, septetByte_highOf]

/-- On the edge an iteration emits the neutral message and leaves BRIGHT 0 (R77). -/
theorem iterate_of_edge (w : Wave) {s : State} (hprev : s.prevSw = Level.low)
    (hsw : s.currentIn.sw = Level.high) :
    (iterate w s).tx = s.tx ++ [0xE0#8, 0x00#8, 0x40#8] ∧ (iterate w s).bright = 0#8 := by
  rw [iterate_eq, hprev, hsw]
  exact ⟨rfl, rfl⟩

/-- While the level stays inactive an iteration emits nothing and keeps BRIGHT (R78). -/
theorem iterate_of_idle (w : Wave) {s : State} (hprev : s.prevSw = Level.high)
    (hsw : s.currentIn.sw = Level.high) :
    (iterate w s).tx = s.tx ∧ (iterate w s).bright = s.bright := by
  rw [iterate_eq, hprev, hsw]
  exact ⟨List.append_nil s.tx, rfl⟩

/-! ### The gate's contract -/

/-- Settles O36: each part is one of the three cases of the levels; part (b)'s next iteration is idle
because the edge left its inactive level in PREV_SW. -/
theorem gateContract : Obligations.GateContract := by
  rintro w s t hslot rfl
  refine ⟨fun hw => hw ▸ step_of_slot_nil hslot, ?neutralOnly, ?edge, ?active, iterate_of_idle w⟩
  case neutralOnly =>
    intro hsw
    rcases level_cases s.prevSw with hprev | hprev
    · exact .inr (iterate_of_edge w hprev hsw).1
    · exact .inl (iterate_of_idle w hprev hsw).1
  case edge =>
    intro hprev hsw
    obtain ⟨htx, hbright⟩ := iterate_of_edge w hprev hsw
    have hnext : (iterate w s).prevSw = Level.high := (iterate_prevSw w s).trans hsw
    exact ⟨htx, hbright, fun hoff => (iterate_of_idle w hnext hoff).1⟩
  case active =>
    intro hsw
    rw [iterate_tx_of_active w hsw, iterationCv_toNat]

/-! ### The first iteration after reset -/

/-- While the level stays inactive after an inactive one, no number of iterations emits anything or
changes BRIGHT (R78). -/
theorem iterate_many_of_idle (w : Wave) (n : Nat) {s : State} (hprev : s.prevSw = Level.high)
    (hoff : ∀ k < n, levelAt s k = Level.high) :
    ((iterate w)^[n] s).tx = s.tx ∧ ((iterate w)^[n] s).bright = s.bright := by
  induction n generalizing s with
  | zero => exact ⟨rfl, rfl⟩
  | succ n ih =>
    have hsw : s.currentIn.sw = Level.high := hoff 0 (Nat.succ_pos n)
    obtain ⟨htx, hbright⟩ := iterate_of_idle w hprev hsw
    have hlater : ∀ k < n, levelAt (iterate w s) k = Level.high := fun k hk =>
      (levelAt_iterate w s k).trans (hoff (k + 1) (Nat.succ_lt_succ hk))
    rw [Function.iterate_succ_apply, ← htx, ← hbright]
    exact ih ((iterate_prevSw w s).trans hsw) hlater

/-- At PHASE 0 of a legal WAVE the computed value is 8191, one below NEUTRAL, whatever the Depth (R69). -/
theorem iterationCv_of_phase_zero {w : Wave} {s : State} (hphase : s.phase = 0#8)
    (hw : w.wf = true) : iterationCv w s = 8191#14 := by
  rw [iterationCv, hphase, memRead_zero hw, Modulator.productOf_zero_sample,
    Modulator.controlOf_zero]

/-- Settles O47: reset leaves PREV_SW at its reset value, TX empty and PHASE 0, so iteration 0 is the
case of the levels, an active one carries 8191, and an inactive start goes on by induction. -/
theorem firstIterationAfterReset : Obligations.FirstIterationAfterReset := by
  rintro w s p b ins rfl hw
  refine ⟨fun hp n hoff => ?stayingOff, fun hsw => ?active, fun hp hsw => ?edge⟩
  case stayingOff =>
    obtain ⟨htx, hbright⟩ := iterate_many_of_idle w n hp hoff
    exact ⟨_, rfl, htx, hbright, fun hwave => hwave ▸ run_of_slot_nil n rfl⟩
  case active =>
    have htx := iterate_tx_of_active w hsw
    rw [iterationCv_of_phase_zero rfl hw] at htx
    exact ⟨_, rfl, htx, fun hwave => hwave ▸ step_of_slot_nil rfl⟩
  case edge =>
    exact ⟨_, rfl, (iterate_of_edge w hp hsw).1, fun hwave => hwave ▸ step_of_slot_nil rfl⟩

end Sys2Proof.EnableGate
end

section
/-! The protocol encoder: what ENCODE emits (R84, R85) and the receiver's inverse (R87). -/
namespace Sys2Proof.ProtocolEncoder

open Sys2Proof.Machine Sys2Proof.Encoding

/-! ### ENCODE as an operation -/

/-- ENCODE always completes, with `encodeValue` as its meaning (R84). -/
theorem exec_encode (v : ControlValue) (s : State) :
    exec (.encode v) s = .next (encodeValue v s) := rfl

/-- A next state that ENCODE gives is `encodeValue`'s. -/
theorem eq_encodeValue_of_exec {v : ControlValue} {s t : State}
    (h : exec (.encode v) s = .next t) : t = encodeValue v s :=
  (Host.Outcome.next.inj h).symm

/-- ENCODE appends the status byte and the two septets' bytes to TX, low first (R84). -/
theorem encodeValue_tx (v : ControlValue) (s : State) :
    (encodeValue v s).tx = s.tx ++ [0xE0#8, septetByte (lowOf v), septetByte (highOf v)] := by
  rw [encodeValue_eq]

/-! ### The septets on plain numbers -/

/-- The low septet is the remainder modulo 128, as a bit vector (R49). -/
theorem lowOf_eq_ofNat (v : ControlValue) : lowOf v = BitVec.ofNat 7 (v.toNat % 128) := by
  rw [← lowOf_toNat, BitVec.ofNat_toNat, BitVec.setWidth_eq]

/-- The high septet is the quotient by 128, as a bit vector (R49). -/
theorem highOf_eq_ofNat (v : ControlValue) : highOf v = BitVec.ofNat 7 (v.toNat / 128) := by
  rw [← highOf_toNat, BitVec.ofNat_toNat, BitVec.setWidth_eq]

/-! ### The receiver's inverse -/

/-- The receiver's `(high << 7) | low` of the two bytes sent is the value (R87). -/
theorem septetBytes_reconstruct (v : ControlValue) :
    ((septetByte (highOf v)).toNat <<< 7) ||| (septetByte (lowOf v)).toNat = v.toNat := by
  rw [septetByte_toNat, septetByte_toNat, ← valueOf_toNat_or, valueOf_lowOf_highOf]

/-- Equal pairs of bytes come from equal values, as the receiver's inverse reads both (R87). -/
theorem eq_of_septetBytes_eq {v w : ControlValue}
    (hlow : septetByte (lowOf v) = septetByte (lowOf w))
    (hhigh : septetByte (highOf v) = septetByte (highOf w)) : v = w := by
  apply BitVec.eq_of_toNat_eq
  rw [← septetBytes_reconstruct v, hlow, hhigh, septetBytes_reconstruct w]

/-- From one state, ENCODE leaves equal streams only for equal values (R87). -/
theorem eq_of_encodeValue_tx_eq {v w : ControlValue} {s : State}
    (h : (encodeValue v s).tx = (encodeValue w s).tx) : v = w := by
  rw [encodeValue_tx, encodeValue_tx, List.append_cancel_left_eq] at h
  simp only [List.cons.injEq, true_and, and_true] at h
  obtain ⟨hlow, hhigh⟩ := h
  exact eq_of_septetBytes_eq hlow hhigh

/-! ### The statements -/

/-- Settles O24: the receiver's inverse on the two bytes sent, and injectivity from it. -/
theorem encodeIsInjective : Obligations.EncodeIsInjective := by
  intro v w s t u hv hw
  rw [eq_encodeValue_of_exec hv, eq_encodeValue_of_exec hw]
  exact ⟨⟨_, _, _, encodeValue_tx v s, septetBytes_reconstruct v⟩, eq_of_encodeValue_tx_eq⟩

/-- Settles O22: the whole next state of `encodeValue`, each septet and its byte on plain numbers. -/
theorem encodeResult : Obligations.EncodeResult := by
  intro v s
  rw [exec_encode, encodeValue_eq, septetByte_lowOf, septetByte_highOf, lowOf_eq_ofNat,
    highOf_eq_ofNat]

/-- Settles O23: the appended bytes at the three values, where both septets compute. -/
theorem workedEncodings : Obligations.WorkedEncodings := by
  intro s
  refine ⟨⟨_, exec_encode _ s, ?neutral⟩, ⟨_, exec_encode _ s, ?least⟩,
    ⟨_, exec_encode _ s, ?greatest⟩⟩
  case neutral => exact encodeValue_tx 8192#14 s
  case least => exact encodeValue_tx 0#14 s
  case greatest => exact encodeValue_tx 16383#14 s

end Sys2Proof.ProtocolEncoder
end

section
/-! The boundary units: READ_PERIOD (R89), READ_DEPTH (R90) and the brightness values that FEEDBACK
attains (R92, R93). -/
namespace Sys2Proof.BoundaryUnits

open Sys2Proof.Machine Sys2Proof.Safety Sys2Proof.Modulator

/-! ### READ_PERIOD -/

/-- The Period stays in [RATE_MIN, RATE_MAX] (R89). -/
theorem period_bounds (r : RawSample) : 1000 ≤ period r.toNat ∧ period r.toNat ≤ 10000 := by
  have hr : r.toNat < 1024 := r.isLt
  unfold period
  omega

/-- A larger raw sample gives a longer Period: one step of the sample is more than one microsecond
(R89). -/
theorem period_lt_period {m n : Nat} (h : m < n) : period m < period n := by
  unfold period
  omega

/-- READ_PERIOD leaves the Period of the current raw sample, on plain numbers (R89). -/
theorem readPeriod_period_toNat (s : State) :
    (readPeriod s).wires.period.toNat = period s.currentIn.rawRate.toNat :=
  periodOf_toNat s.currentIn.rawRate

/-- A next state that READ_PERIOD gives is `readPeriod`'s. -/
theorem eq_readPeriod_of_exec {s t : State} (h : exec .readPeriod s = .next t) :
    t = readPeriod s :=
  (Host.Outcome.next.inj h).symm

/-- Settles O8: the Period on plain numbers, with its range and its strict order. -/
theorem readPeriodResult : Obligations.ReadPeriodResult := by
  intro s
  obtain ⟨hlow, hhigh⟩ := period_bounds s.currentIn.rawRate
  rw [← readPeriod_period_toNat] at hlow hhigh
  refine ⟨readPeriod s, rfl, readPeriod_period_toNat s, hlow, hhigh, rfl, ?larger⟩
  case larger =>
    intro s' t' hexec hlt
    rw [eq_readPeriod_of_exec hexec, readPeriod_period_toNat, readPeriod_period_toNat]
    exact period_lt_period hlt

/-! ### READ_DEPTH -/

/-- The division truncates, so only the top raw sample reaches the top Depth (R90). -/
theorem depth_eq_255_iff (r : RawSample) : depth r.toNat = 255 ↔ r.toNat = 1023 := by
  have hr : r.toNat < 1024 := r.isLt
  unfold depth
  omega

/-- READ_DEPTH leaves the Depth of the current raw sample, on plain numbers (R90). -/
theorem readDepth_depth_toNat (s : State) :
    (readDepth s).wires.depth.toNat = depth s.currentIn.rawDepth.toNat :=
  depthOf_toNat s.currentIn.rawDepth

/-- Settles O9: the Depth on plain numbers, and the one raw sample that reaches 255. -/
theorem readDepthResult : Obligations.ReadDepthResult := by
  intro s
  refine ⟨readDepth s, rfl, readDepth_depth_toNat s, ?top, rfl⟩
  case top =>
    rw [readDepth_depth_toNat]
    exact depth_eq_255_iff s.currentIn.rawDepth

/-! ### FEEDBACK -/

/-- In the domain of R92 FEEDBACK gives the byte whose number the formula gives. -/
theorem brightnessOf_eq {cv : ControlValue} {b : Byte} (hlow : 4915 ≤ cv.toNat)
    (hhigh : cv.toNat ≤ 11467) (hb : brightness cv.toNat = b.toNat) : brightnessOf params cv = b :=
  BitVec.eq_of_toNat_eq ((brightnessOf_toNat hlow hhigh).trans hb)

/-- FEEDBACK leaves the brightness of the computed ControlValue. -/
theorem brightness_of_exec_feedback {s t : State} (h : exec .feedback s = .next t) :
    t.wires.brightness = brightnessOf params s.wires.cv := by
  rw [← Host.Outcome.next.inj h]
  rfl

/-- FEEDBACK at one ControlValue of its domain, from the formula's number there (R92, R93). -/
theorem brightness_of_exec_feedback_at {s t : State} {v : ControlValue} {b : Byte}
    (hexec : exec .feedback s = .next t) (hlow : 4915 ≤ v.toNat) (hhigh : v.toNat ≤ 11467)
    (hb : brightness v.toNat = b.toNat) (hcv : s.wires.cv = v) : t.wires.brightness = b := by
  rw [brightness_of_exec_feedback hexec, hcv]
  exact brightnessOf_eq hlow hhigh hb

/-- The modulator's values stay off the bounds 4915 and 11467, because a product of a depth and a
sample does not fill 16 signed bits (R68, R70). -/
theorem controlOf_productOf_bounds (d : Depth) (x : Sample) :
    4927 ≤ (controlOf params (productOf d x)).toNat ∧
      (controlOf params (productOf d x)).toNat ≤ 11428 := by
  obtain ⟨hlow, hhigh⟩ := productOf_bounds d x
  have hcv := controlOf_toNat (productOf d x)
  omega

/-- Over the modulator's values the brightness is at most 253 (R93). -/
theorem brightnessOf_le_253 {cv : ControlValue} (hlow : 4927 ≤ cv.toNat)
    (hhigh : cv.toNat ≤ 11428) : (brightnessOf params cv).toNat ≤ 253 := by
  rw [brightnessOf_toNat (by omega) (by omega), brightness]
  omega

/-- Settles O26: the formula at the named values, the range [4927, 11428] of the modulator for the
bound and the excluded ends, and 8191 for zero depth. -/
theorem attainedBrightness : Obligations.AttainedBrightness := by
  refine ⟨fun s t hexec => ?named, fun d x => ?modulated, fun x => ?zeroDepth⟩
  case named =>
    have hvalue (v : ControlValue) (b : Byte) :=
      brightness_of_exec_feedback_at (v := v) (b := b) hexec
    exact ⟨hvalue 4927#14 0#8 (by decide) (by decide) rfl,
      hvalue 4953#14 1#8 (by decide) (by decide) rfl,
      hvalue 8191#14 127#8 (by decide) (by decide) rfl,
      hvalue 8192#14 127#8 (by decide) (by decide) rfl,
      hvalue 11428#14 253#8 (by decide) (by decide) rfl,
      hvalue 4915#14 0#8 (by decide) (by decide) rfl,
      hvalue 11467#14 255#8 (by decide) (by decide) rfl⟩
  case modulated =>
    obtain ⟨hlow, hhigh⟩ := controlOf_productOf_bounds d x
    exact ⟨brightnessOf_le_253 hlow hhigh, fun hcv => absurd (hcv ▸ hlow) (by decide),
      fun hcv => absurd (hcv ▸ hhigh) (by decide)⟩
  case zeroDepth =>
    rw [productOf_zero_depth, controlOf_zero]
    exact brightnessOf_eq (by decide) (by decide) rfl

end Sys2Proof.BoundaryUnits
end

section
/-! The outbound stream as a sequence of whole messages (R50, R101). -/
namespace Sys2Proof.OutboundStream

open Sys2Proof.Machine Sys2Proof.Safety Sys2Proof.Encoding Sys2Proof.WholeLoop

/-! ### The shape of whole messages -/

/-- The empty stream is framed. -/
theorem framed_nil : framed [] :=
  ⟨rfl, fun _ _ h => nomatch h⟩

/-- Whole messages after whole messages are whole messages: the length of the first stream is a
multiple of 3, so every byte of the second keeps its place within its message. -/
theorem framed_append {xs ys : List Byte} (hxs : framed xs) (hys : framed ys) :
    framed (xs ++ ys) := by
  obtain ⟨hlenx, hbytesx⟩ := hxs
  obtain ⟨hleny, hbytesy⟩ := hys
  refine ⟨by rw [List.length_append]; omega, fun k b hk => ?_⟩
  rcases Nat.lt_or_ge k xs.length with hlt | hge
  · rw [List.getElem?_append_left hlt] at hk
    exact hbytesx k b hk
  · rw [List.getElem?_append_right hge] at hk
    have hplace : (k - xs.length) % 3 = k % 3 := by omega
    rw [← hplace]
    exact hbytesy (k - xs.length) b hk

/-- The bytes of one value are framed: the status byte, and two septets with bit 7 clear (R50, R84). -/
theorem framed_septetBytes (v : ControlValue) :
    framed [0xE0#8, septetByte (lowOf v), septetByte (highOf v)] := by
  have hseptet (x : Septet) : (septetByte x).toNat < 128 := septetByte_toNat x ▸ x.isLt
  refine ⟨Nat.mod_self 3, fun k b hk => ?_⟩
  match k, hk with
  | 0, rfl => exact rfl
  | 1, rfl => exact hseptet (lowOf v)
  | 2, rfl => exact hseptet (highOf v)

/-! ### What the gate sends -/

/-- The gate sends nothing or the three bytes of one value, computed or neutral (R80). -/
theorem gateBytes_cases (prev sw : Level) (cv : ControlValue) :
    gateBytes prev sw cv = [] ∨
      ∃ v, gateBytes prev sw cv = [0xE0#8, septetByte (lowOf v), septetByte (highOf v)] := by
  unfold gateBytes
  split
  · exact .inr ⟨cv, rfl⟩
  · split
    · exact .inr ⟨params.neutral, rfl⟩
    · exact .inl rfl

/-- What the gate sends is framed. -/
theorem framed_gateBytes (prev sw : Level) (cv : ControlValue) :
    framed (gateBytes prev sw cv) := by
  rcases gateBytes_cases prev sw cv with h | ⟨v, h⟩
  · exact h ▸ framed_nil
  · exact h ▸ framed_septetBytes v

/-! ### Iterations -/

/-- An iteration appends to TX what its gate sends (R98). -/
theorem iterate_tx (w : Wave) (s : State) :
    (iterate w s).tx = s.tx ++ gateBytes s.prevSw s.currentIn.sw (iterationCv w s) := by
  rw [iterate_eq]

/-- An iteration appends no byte or three (R101). -/
theorem iterate_tx_cases (w : Wave) (s : State) :
    (iterate w s).tx = s.tx ∨ ∃ b0 b1 b2 : Byte, (iterate w s).tx = s.tx ++ [b0, b1, b2] := by
  rw [iterate_tx]
  rcases gateBytes_cases s.prevSw s.currentIn.sw (iterationCv w s) with h | ⟨v, h⟩
  · exact .inl (by rw [h, List.append_nil])
  · exact .inr ⟨_, _, _, by rw [h]⟩

/-- An iteration keeps TX framed (R101). -/
theorem framed_iterate (w : Wave) {s : State} (h : framed s.tx) : framed (iterate w s).tx := by
  rw [iterate_tx]
  exact framed_append h (framed_gateBytes _ _ _)

/-- Any number of iterations keeps TX framed (R101). -/
theorem framed_iterate_many (w : Wave) (n : Nat) {s : State} (h : framed s.tx) :
    framed ((iterate w)^[n] s).tx :=
  Function.Iterate.rec (fun t : State => framed t.tx) h (fun _ => framed_iterate w) n

/-- Settles O51: each iteration appends what its gate sends, and framing is kept from the empty TX of
reset, where the empty slot makes the machine's run the iterations. -/
theorem txIsWholeMessages : Obligations.TxIsWholeMessages := by
  refine ⟨?growth, fun w n p b ins => ?run⟩
  case growth =>
    rintro w s t hslot rfl
    exact ⟨fun hw => hw ▸ step_of_slot_nil hslot, iterate_tx_cases w s⟩
  case run =>
    exact ⟨_, rfl, framed_iterate_many w n framed_nil, fun hw => hw ▸ run_of_slot_nil n rfl⟩

end Sys2Proof.OutboundStream
end

section
/-! The decoder and the encoder as inverses of each other (R46 to R49, R52 to R54), and the receiver's
parser of a whole stream (R54, R87). -/
namespace Sys2Proof.Codec

open Sys2Proof.Machine Sys2Proof.Safety Sys2Proof.Encoding

/-! ### The selector -/

/-- A selector's byte decodes to the operation of its gate action (R46, R47). -/
theorem decode_selectorByte (sel : Selector) : decode [selectorByte sel] = .ok (gateInstr sel) := by
  revert sel; decide

/-- A byte whose six high bits are 0 is the byte of its two low bits (R46). -/
theorem selectorByte_of_zero {b : Byte} (hzero : b.extractLsb' 2 6 = 0#6) :
    selectorByte (b.extractLsb' 0 2) = b := by
  revert b; decide

/-- The operation of a selector's gate action is encoded by that selector: the don't-care bit of GATE.MOD
is its operand (R47). -/
theorem encode_gateInstr (sel : Selector) :
    encode (gateInstr sel) = some [selectorByte sel] := by
  revert sel; decide

/-- A selector is put together from its two bits (R46). -/
theorem selectorOf_prev_cur (sel : Selector) :
    selectorOf (Selector.prev sel) (Selector.cur sel) = sel := by
  revert sel; decide

/-- A selector with an active current level selects GATE.MOD, whatever its previous level (R47). -/
theorem gateInstr_of_active (prev : Level) :
    gateInstr (selectorOf prev Level.low) = .gateMod prev := by
  revert prev; decide

/-! ### The message -/

/-- The low septet of a reconstructed value is the one received (R49). -/
theorem lowOf_valueOf (low high : Septet) : lowOf (valueOf low high) = low := by
  apply BitVec.eq_of_toNat_eq
  have hlow : low.toNat < 128 := low.isLt
  rw [lowOf_toNat, valueOf_toNat]
  omega

/-- The high septet of a reconstructed value is the one received (R49). -/
theorem highOf_valueOf (low high : Septet) : highOf (valueOf low high) = high := by
  apply BitVec.eq_of_toNat_eq
  have hlow : low.toNat < 128 := low.isLt
  rw [highOf_toNat, valueOf_toNat]
  omega

/-- Bit 7 of a septet's byte is clear (R48). -/
theorem septetByte_bit7 (x : Septet) : (septetByte x).extractLsb' 7 1 = 0#1 := by
  apply BitVec.eq_of_toNat_eq
  have hx : x.toNat < 128 := x.isLt
  rw [BitVec.extractLsb'_toNat, septetByte_toNat, Nat.shiftRight_eq_div_pow,
    Nat.div_eq_of_lt hx]
  rfl

/-- The seven low bits of a septet's byte are the septet (R49). -/
theorem septetByte_septet (x : Septet) : (septetByte x).extractLsb' 0 7 = x := by
  apply BitVec.eq_of_toNat_eq
  rw [BitVec.extractLsb'_toNat, septetByte_toNat, Nat.shiftRight_zero]
  exact Nat.mod_eq_of_lt x.isLt

/-- A byte with bit 7 clear is the byte of its seven low bits (R48). -/
theorem septetByte_of_bit7 {b : Byte} (hbit : b.extractLsb' 7 1 = 0#1) :
    septetByte (b.extractLsb' 0 7) = b := by
  revert b; decide

/-- The status byte and two septets' bytes are read as ENCODE of the reconstructed value (R48, R49). -/
theorem decodeMessage_septetBytes (low high : Septet) :
    decodeMessage 0xE0#8 (septetByte low) (septetByte high) = .ok (.encode (valueOf low high)) := by
  rw [decodeMessage, if_pos ⟨rfl, septetByte_bit7 low, septetByte_bit7 high⟩, septetByte_septet,
    septetByte_septet]

/-- The bytes of ENCODE are the status byte and the two septets' bytes (R48). -/
theorem encode_encode (v : ControlValue) :
    encode (.encode v) = some [0xE0#8, septetByte (lowOf v), septetByte (highOf v)] := rfl

/-! ### The round trips -/

/-- Settles O1: a gate action's byte is its selector's, a message is read septet by septet, and no other
operation has bytes. -/
theorem decodeOfEncodeIsTheOperation : Obligations.DecodeOfEncodeIsTheOperation := by
  intro i bytes hencode
  cases i with
  | gateMod prev =>
    obtain rfl := Option.some.inj hencode
    rw [decode_selectorByte, gateInstr_of_active]
  | gateNeutral =>
    obtain rfl := Option.some.inj hencode
    exact decode_selectorByte (selectorOf Level.low Level.high)
  | gateIdle =>
    obtain rfl := Option.some.inj hencode
    exact decode_selectorByte (selectorOf Level.high Level.high)
  | encode v =>
    obtain rfl := Option.some.inj hencode
    have hmessage := decodeMessage_septetBytes (lowOf v) (highOf v)
    rwa [valueOf_lowOf_highOf] at hmessage
  | _ => cases hencode

/-- What decodes is the byte of a selector, or the three bytes of a value (R47, R48, R52). -/
theorem decode_ok_cases {bytes : List Byte} {i : Instr} (h : decode bytes = .ok i) :
    (∃ sel, bytes = [selectorByte sel] ∧ i = gateInstr sel) ∨
      ∃ v, bytes = [0xE0#8, septetByte (lowOf v), septetByte (highOf v)] ∧ i = .encode v := by
  unfold decode at h
  split at h
  case h_1 b =>
    unfold decodeSelector at h
    split at h
    case isTrue hzero =>
      refine .inl ⟨_, ?_, (Except.ok.inj h).symm⟩
      rw [selectorByte_of_zero hzero]
    case isFalse => cases h
  case h_2 b0 b1 b2 =>
    unfold decodeMessage at h
    split at h
    case isTrue hfixed =>
      obtain ⟨rfl, hb1, hb2⟩ := hfixed
      refine .inr ⟨_, ?_, (Except.ok.inj h).symm⟩
      rw [lowOf_valueOf, highOf_valueOf, septetByte_of_bit7 hb1, septetByte_of_bit7 hb2]
    case isFalse => cases h
  case h_3 => cases h

/-- A gate action is well formed: its operand is bounded by its type. -/
theorem gateInstr_wf (sel : Selector) : (gateInstr sel).wf = true := by
  revert sel; decide

/-- Settles O2, by the two forms of what decodes. -/
theorem encodeOfDecodeIsTheBytes : Obligations.EncodeOfDecodeIsTheBytes := by
  intro i bytes hdecode
  rcases decode_ok_cases hdecode with ⟨sel, rfl, rfl⟩ | ⟨v, rfl, rfl⟩
  · exact ⟨encode_gateInstr sel, gateInstr_wf sel⟩
  · exact ⟨encode_encode v, rfl⟩

/-- Settles O3, constructor by constructor: the encoder answers bytes for four of them. -/
theorem onlyGateAndMessageHaveEncodings : Obligations.OnlyGateAndMessageHaveEncodings := by
  refine fun i => ⟨fun hsome => ?onlyThese, ?these⟩
  case onlyThese =>
    cases i with
    | gateMod prev => exact .inl ⟨prev, rfl⟩
    | gateNeutral => exact .inr (.inl rfl)
    | gateIdle => exact .inr (.inr (.inl rfl))
    | encode v => exact .inr (.inr (.inr ⟨v, rfl⟩))
    | _ => cases hsome
  case these => rintro (⟨prev, rfl⟩ | rfl | rfl | ⟨v, rfl⟩) <;> rfl

/-- Settles O5: the decoder computes on each of the twelve words. -/
theorem writtenOutWordsDecode : Obligations.WrittenOutWordsDecode := by
  unfold Obligations.WrittenOutWordsDecode
  decide

/-! ### The receiver -/

/-- The message of a value is the status byte and its two septets' bytes (R49, R84). -/
theorem message_toNat (v : ControlValue) :
    message v.toNat = [0xE0#8, septetByte (lowOf v), septetByte (highOf v)] := by
  rw [message, septetByte_lowOf, septetByte_highOf]

/-- The receiver reads the value of the first message and goes on behind its third byte (R52, R54). -/
theorem parseTx_message_append (v : ControlValue) (rest : List Byte) :
    parseTx (message v.toNat ++ rest) = (parseTx rest).map (v :: ·) := by
  rw [message_toNat, List.cons_append, List.cons_append, List.cons_append, List.nil_append, parseTx,
    decodeMessage_septetBytes, valueOf_lowOf_highOf]
  cases parseTx rest <;> rfl

/-- Settles O4, by induction on the values sent. -/
theorem receiverReadsTheValuesSent : Obligations.ReceiverReadsTheValuesSent := by
  intro vs
  induction vs with
  | nil => rfl
  | cons v vs ih => rw [List.flatMap_cons, parseTx_message_append, ih]; rfl

end Sys2Proof.Codec
end

section
/-! One iteration of either interface as the spec's pseudocode (R98, R100), `n` of them in closed form
(R102, R103), and the agreement of the two interfaces (R100). -/
namespace Sys2Proof.Runs

open Sys2Proof.Machine Sys2Proof.Safety Sys2Proof.Codec Sys2Proof.WholeLoop
  Sys2Proof.BoundaryUnits

/-! ### The gate on plain numbers -/

/-- The gate sends the bytes of the table of R80. -/
theorem gateBytes_eq_emitted (prev sw : Level) (cv : ControlValue) :
    gateBytes prev sw cv = emitted prev sw cv.toNat := by
  rw [gateBytes, emitted, message_toNat]

/-- For a value the modulator produces, the gate leaves the brightness of the table of R80. -/
theorem gateBright_eq_brightAfterGate (prev sw : Level) {cv : ControlValue} (held : Byte)
    (hlow : 4927 ≤ cv.toNat) (hhigh : cv.toNat ≤ 11428) :
    gateBright prev sw cv held = brightAfterGate prev sw cv.toNat held := by
  have hbright : brightnessOf params cv = BitVec.ofNat 8 (brightness cv.toNat) := by
    rw [← brightnessOf_toNat (by omega) (by omega), BitVec.ofNat_toNat, BitVec.setWidth_eq]
  rw [gateBright, brightAfterGate, hbright]

/-- `n` increments of PHASE on plain numbers (R61, R63). -/
theorem phase_add_ofNat (p : Phase) (n : Nat) :
    p + BitVec.ofNat 8 n = BitVec.ofNat 8 ((p.toNat + n) % 256) := by
  apply BitVec.eq_of_toNat_eq
  rw [BitVec.toNat_add, BitVec.toNat_ofNat, BitVec.toNat_ofNat]
  omega

/-- The Period of a raw sample, as the bits of the record (R89). -/
theorem periodOf_eq_ofNat (r : RawSample) : periodOf params r = BitVec.ofNat 14 (period r.toNat) := by
  rw [← periodOf_toNat, BitVec.ofNat_toNat, BitVec.setWidth_eq]

/-- The value of an iteration is one the modulator produces (R68, R70). -/
theorem iterationCv_bounds (w : Wave) (s : State) :
    4927 ≤ (iterationCv w s).toNat ∧ (iterationCv w s).toNat ≤ 11428 :=
  controlOf_productOf_bounds _ _

/-! ### One iteration of the whole loop -/

/-- One iteration on plain numbers: message and BRIGHT by the table of R80, from the value of COMPUTE
(R98). -/
theorem iterate_eq_spec (w : Wave) (s : State) {cv : Nat} (hcv : (iterationCv w s).toNat = cv) :
    iterate w s = { s with
      phase := BitVec.ofNat 8 ((s.phase.toNat + 1) % 256)
      prevSw := s.currentIn.sw
      bright := brightAfterGate s.prevSw s.currentIn.sw cv s.bright
      tx := s.tx ++ emitted s.prevSw s.currentIn.sw cv
      trace := s.trace ++ [{
        tx := emitted s.prevSw s.currentIn.sw cv
        bright := brightAfterGate s.prevSw s.currentIn.sw cv s.bright
        waitUs := BitVec.ofNat 14 (period s.currentIn.rawRate.toNat) }]
      wires := Wires.idle
      inputs := s.inputs.tail
      iteration := s.iteration + 1 } := by
  obtain ⟨hlow, hhigh⟩ := iterationCv_bounds w s
  rw [iterate_eq, gateBytes_eq_emitted, gateBright_eq_brightAfterGate _ _ _ hlow hhigh, hcv,
    periodOf_eq_ofNat, ← phase_add_ofNat]

/-- Settles O31: the iteration on plain numbers, with its value as R68 and R90 compute it. -/
theorem iterateIsTheStepOfTheSpec : Obligations.IterateIsTheStepOfTheSpec := by
  rintro w s u r cv rfl rfl rfl
  have hiterate := iterate_eq_spec w s (iterationCv_toNat w s)
  exact ⟨hiterate, fun hw => congrArg Host.Outcome.next (hw ▸ hiterate)⟩

/-- An iteration writes the transients before it reads them, so those held before do not matter (R24). -/
theorem iterate_setWires (w : Wave) (s : State) (old : Wires) :
    iterate w (s.setWires old) = iterate w s := by
  rw [iterate_eq, iterate_eq]
  rfl

/-- Settles O37: the raw rate sample stands in none of the iteration's fields but the record's Period. -/
theorem rateAffectsOnlyTheWait : Obligations.RateAffectsOnlyTheWait := by
  rintro w s t u r rest rate rfl rfl
  have hcv : iterationCv w { s with inputs := { r with rawRate := rate } :: rest }
      = iterationCv w { s with inputs := r :: rest } := rfl
  refine ⟨fun hw => hw ▸ ⟨rfl, rfl⟩, ?_⟩
  rw [iterate_eq, iterate_eq, hcv, List.map_append, List.map_append, List.map_singleton,
    List.map_singleton]
  exact ⟨rfl, rfl, rfl, rfl, rfl, rfl⟩

/-! ### One iteration of the core -/

/-- The ControlValue an iteration of the core computes (R100). -/
def coreIterationCv (w : Wave) (s : State) : ControlValue :=
  controlOf params (productOf s.currentCoreIn.depth (memRead w s.phase))

/-- What an iteration of the core does to every field of the state (R100). -/
theorem iterateCore_eq (w : Wave) (s : State) :
    iterateCore w s = { s with
      phase := s.phase + 1#8
      prevSw := s.currentCoreIn.sw
      tx := s.tx ++ gateBytes s.prevSw s.currentCoreIn.sw (coreIterationCv w s)
      coreTrace := s.coreTrace ++
        [{ tx := gateBytes s.prevSw s.currentCoreIn.sw (coreIterationCv w s) }]
      wires := Wires.idle
      coreInputs := s.coreInputs.tail
      iteration := s.iteration + 1 } := by
  obtain ⟨hphase, -, hbright, htx, htrace, hcoreTrace, hinputs, hcoreInputs, hiteration, hslot,
    hmsg, hsw⟩ := gateCore_fields (beforeGateCore w s)
  rw [iterateCore, afterGateCore_eq, hphase, hbright, htx, htrace, hcoreTrace, hinputs, hcoreInputs,
    hiteration, hslot, hmsg, hsw, beforeGateCore_eq]
  rfl

/-- Settles O32: the core's iteration field by field, its bytes and its value on plain numbers. -/
theorem iterateCoreIsTheCoreStepOfTheSpec : Obligations.IterateCoreIsTheCoreStepOfTheSpec := by
  rintro w s u r cv rfl rfl rfl
  have hcv : (coreIterationCv w s).toNat
      = controlValue s.currentCoreIn.depth.toNat (memRead w s.phase).toInt := control_toNat _ _
  have hiterate := iterateCore_eq w s
  rw [gateBytes_eq_emitted, hcv, phase_add_ofNat] at hiterate
  exact ⟨hiterate, fun hw => congrArg Host.Outcome.next (hw ▸ hiterate)⟩

/-- The core's iteration writes the transients before it reads them, too (R24). -/
theorem iterateCore_setWires (w : Wave) (s : State) (old : Wires) :
    iterateCore w (s.setWires old) = iterateCore w s := by
  rw [iterateCore_eq, iterateCore_eq]
  rfl

/-- Settles O38: both iterations are the same from any transients. -/
theorem transientsDoNotReachTheNextIteration : Obligations.TransientsDoNotReachTheNextIteration :=
  fun w s old => ⟨iterate_setWires w s old, iterateCore_setWires w s old,
    congrArg Host.Outcome.next (iterate_setWires wave s old),
    congrArg Host.Outcome.next (iterateCore_setWires wave s old)⟩

/-- After an iteration of the core its records to come are one nearer (R27). -/
theorem coreRecord_iterateCore (w : Wave) (s : State) (k : Nat) :
    (iterateCore w s).coreRecord k = s.coreRecord (k + 1) := by
  rw [iterateCore_eq, ← coreRecord_popCoreInput]
  rfl

/-! ### The two interfaces agree -/

/-- The loop and the core stand at the same PHASE and PREV_SW and have sent the same bytes (R100). -/
structure Agree (s c : State) : Prop where
  phase : s.phase = c.phase
  prevSw : s.prevSw = c.prevSw
  tx : s.tx = c.tx

/-- A record of the core corresponds to one of the loop: the same level, and the Depth that READ_DEPTH
makes of the raw sample (R90, R100). -/
def Corresponds (c : CoreIn) (r : LoopIn) : Prop :=
  c.depth.toNat = r.rawDepth.toNat * 255 / 1023 ∧ c.sw = r.sw

/-- From agreeing states, corresponding records give the two interfaces the same value. -/
theorem coreIterationCv_eq (w : Wave) {s c : State} (hphase : s.phase = c.phase)
    (hrecord : Corresponds c.currentCoreIn s.currentIn) :
    coreIterationCv w c = iterationCv w s := by
  obtain ⟨hdepth, -⟩ := hrecord
  have hdepthOf : depthOf params s.currentIn.rawDepth = c.currentCoreIn.depth := by
    apply BitVec.eq_of_toNat_eq
    rw [depthOf_toNat, hdepth, Safety.depth]
  rw [coreIterationCv, iterationCv, hphase, hdepthOf]

/-- One iteration of each, on corresponding records, keeps the agreement. -/
theorem Agree.iterate (w : Wave) {s c : State} (h : Agree s c)
    (hrecord : Corresponds c.currentCoreIn s.currentIn) :
    Agree (iterate w s) (iterateCore w c) := by
  obtain ⟨hphase, hprev, htx⟩ := h
  have hcv := coreIterationCv_eq w hphase hrecord
  obtain ⟨-, hsw⟩ := hrecord
  rw [iterate_eq, iterateCore_eq, hcv, hphase, hprev, htx, hsw]
  exact ⟨rfl, rfl, rfl⟩

/-- `n` iterations of each, on corresponding records, keep the agreement. -/
theorem Agree.iterate_many (w : Wave) (n : Nat) {s c : State} (h : Agree s c)
    (hrecords : ∀ k < n, Corresponds (c.coreRecord k) (s.loopRecord k)) :
    Agree ((Machine.iterate w)^[n] s) ((iterateCore w)^[n] c) := by
  induction n generalizing s c with
  | zero => exact h
  | succ n ih =>
    rw [Function.iterate_succ_apply, Function.iterate_succ_apply]
    refine ih (h.iterate w (hrecords 0 n.succ_pos)) fun k hk => ?_
    rw [coreRecord_iterateCore, loopRecord_iterate]
    exact hrecords (k + 1) (Nat.succ_lt_succ hk)

/-- Settles O33: the agreement is kept by every pair of iterations, and the iterations are the machine's
run and the executions of ITERATE_CORE. -/
theorem wholeLoopAndCoreAgree : Obligations.WholeLoopAndCoreAgree := by
  intro w n s c hslot hphase hprev htx hrecords
  obtain ⟨hphase', hprev', htx'⟩ := Agree.iterate_many w n ⟨hphase, hprev, htx⟩ hrecords
  refine ⟨_, _, rfl, rfl, htx', hphase', hprev', ?_⟩
  rintro rfl
  exact ⟨run_of_slot_nil n hslot, Wavetable.execMany_eq_iterate (fun _ => rfl) n c⟩

/-! ### A run in closed form -/

/-- The state after `n` iterations from `s`, in the terms of the claims (R102): the transients are idle
after the first. -/
def stateAfter (w : Wave) (s : State) (n : Nat) : State :=
  { s with
    phase := BitVec.ofNat 8 ((s.phase.toNat + n) % 256)
    prevSw := levelBefore s n
    bright := brightAfter w s n
    tx := s.tx ++ ((List.range n).map (emittedAt w s)).flatten
    trace := s.trace ++ (List.range n).map (recordAt w s)
    wires := if n = 0 then s.wires else Wires.idle
    inputs := s.inputs.drop n
    iteration := s.iteration + n }

/-- No iteration, nothing changed. -/
theorem stateAfter_zero (w : Wave) (s : State) : stateAfter w s 0 = s := by
  have hphase : BitVec.ofNat 8 ((s.phase.toNat + 0) % 256) = s.phase :=
    (phase_add_ofNat s.phase 0).symm.trans (BitVec.add_zero s.phase)
  rw [stateAfter, hphase]
  simp [levelBefore, brightAfter]

/-- The record that iteration `n` samples. -/
theorem stateAfter_currentIn (w : Wave) (s : State) (n : Nat) :
    (stateAfter w s n).currentIn = s.loopRecord n := by
  simp [State.currentIn, State.loopRecord, stateAfter]

/-- The value that iteration `n` computes: its own Depth and the entry at the free-running phase (R102). -/
theorem stateAfter_cv (w : Wave) (s : State) (n : Nat) :
    (iterationCv w (stateAfter w s n)).toNat = controlValueAt w s n := by
  rw [iterationCv_toNat, stateAfter_currentIn, controlValueAt, phase_add_ofNat]
  rfl

/-- The next iteration gives the next state of the closed form. -/
theorem iterate_stateAfter (w : Wave) (s : State) (n : Nat) :
    iterate w (stateAfter w s n) = stateAfter w s (n + 1) := by
  have hphase : ((stateAfter w s n).phase.toNat + 1) % 256 = (s.phase.toNat + (n + 1)) % 256 := by
    show (((s.phase.toNat + n) % 256) % 256 + 1) % 256 = _
    omega
  rw [iterate_eq_spec w _ (stateAfter_cv w s n), hphase, stateAfter_currentIn]
  simp only [stateAfter, List.range_succ, List.map_append, List.flatten_append, List.tail_drop,
    ← List.append_assoc]
  simp [levelBefore, brightAfter, emittedAt, recordAt, levelAt, Nat.add_assoc]

/-- `n` iterations from any state, in closed form. -/
theorem iterate_many_eq (w : Wave) (n : Nat) (s : State) :
    (iterate w)^[n] s = stateAfter w s n := by
  induction n with
  | zero => exact (stateAfter_zero w s).symm
  | succ n ih => rw [Function.iterate_succ_apply', ih, iterate_stateAfter]

/-- Settles O34: the closed form of `n` iterations, which are the machine's run from an empty slot. -/
theorem runDeliversTheTrace : Obligations.RunDeliversTheTrace := by
  rintro w n s t hslot hidle rfl
  have hrun := iterate_many_eq w n s
  rw [stateAfter, hidle, ite_self, ← hidle] at hrun
  exact ⟨hrun, fun hw => (run_of_slot_nil n hslot).trans (congrArg _ (hw ▸ hrun))⟩

/-! ### How many bytes a run sends -/

/-- An iteration sends three bytes for an active sample, three for an edge and none else (R80, R103). -/
theorem emittedAt_length (w : Wave) (s : State) (k : Nat) :
    (emittedAt w s k).length = 3 * ((if levelAt s k = Level.low then 1 else 0) +
      if levelAt s k = Level.high ∧ levelBefore s k = Level.low then 1 else 0) := by
  rw [emittedAt]
  rcases level_cases (levelAt s k) with hsw | hsw <;>
    rcases level_cases (levelBefore s k) with hprev | hprev <;>
      rw [hsw, hprev] <;> rfl

/-- The bytes of the first `n` iterations, counted (R103). -/
theorem emitted_length (w : Wave) (s : State) (n : Nat) :
    ((List.range n).map (emittedAt w s)).flatten.length
      = 3 * (activeCount s n + edgeCount s n) := by
  induction n with
  | zero => rfl
  | succ n ih =>
    rw [List.range_succ, List.map_append, List.flatten_append, List.length_append, ih]
    simp only [List.map_cons, List.map_nil, List.flatten_singleton, emittedAt_length, activeCount,
      edgeCount]
    omega

/-- Settles O35: the closed form of TX, counted iteration by iteration. -/
theorem oneMessagePerActiveSampleAndPerEdge : Obligations.OneMessagePerActiveSampleAndPerEdge := by
  intro w n s hslot
  refine ⟨_, rfl, fun hw => hw ▸ run_of_slot_nil n hslot, ?_⟩
  rw [iterate_many_eq, stateAfter, List.length_append, emitted_length]

end Sys2Proof.Runs
end

section
/-! The affine rescale MAP (R65) and the order of COMPUTE (R68, R70). -/
namespace Sys2Proof.AffineMap

open Sys2Proof.Machine Sys2Proof.BoundaryUnits

/-! ### MAP -/

/-- MAP sends the bottom of its source range to the bottom of its target range (R65). -/
theorem mapInt_inMin {a b : Int} (c d : Int) (h : a < b) : mapInt a a b c d = c := by
  rw [mapInt_of_lt h, tdiv_eq_int_tdiv, sub_self, zero_mul, Int.zero_tdiv, add_zero]

/-- MAP sends the top of its source range to the top of its target range: the quotient is exact (R65). -/
theorem mapInt_inMax {a b : Int} (c d : Int) (h : a < b) : mapInt b a b c d = d := by
  rw [mapInt_of_lt h, tdiv_eq_int_tdiv, Int.mul_tdiv_cancel_left _ (sub_ne_zero.2 h.ne')]
  omega

/-- Inside the source range MAP does not decrease, into a target range that is not reversed (R65). -/
theorem mapInt_le_mapInt {a b c d x y : Int} (h : a < b) (hcd : c ≤ d) (hx : a ≤ x) (hxy : x ≤ y) :
    mapInt x a b c d ≤ mapInt y a b c d := by
  have hnumerator : (x - a) * (d - c) ≤ (y - a) * (d - c) :=
    mul_le_mul_of_nonneg_right (by omega) (by omega)
  rw [mapInt_of_mem h hx hcd, mapInt_of_mem h (hx.trans hxy) hcd]
  exact add_le_add_right (Int.ediv_le_ediv (by omega) hnumerator) c

/-- Settles O13: the end points are exact, and the bounds are the order at the end points. -/
theorem mapKeepsBounds : Obligations.MapKeepsBounds := by
  intro a b c d h
  refine ⟨mapInt_inMin c d h, mapInt_inMax c d h, fun hcd x y hx hxy hy => ⟨?low, ?order, ?high⟩⟩
  case low =>
    calc c = mapInt a a b c d := (mapInt_inMin c d h).symm
      _ ≤ mapInt x a b c d := mapInt_le_mapInt h hcd le_rfl hx
  case order => exact mapInt_le_mapInt h hcd hx hxy
  case high =>
    calc mapInt y a b c d ≤ mapInt b a b c d := mapInt_le_mapInt h hcd (hx.trans hxy) hy
      _ = d := mapInt_inMax c d h

/-- Settles O12: MAP writes its result alone, and the spec's quotient is Lean's truncated one. -/
theorem mapResult : Obligations.MapResult := by
  intro x a b c d s
  refine ⟨_, rfl, fun hwf => ?result, rfl⟩
  case result =>
    show mapInt x a b c d = _
    rw [mapInt_of_lt (of_decide_eq_true hwf), tdiv_eq_int_tdiv]

/-! ### COMPUTE -/

/-- COMPUTE's map does not decrease in the product (R68). -/
theorem controlOf_le_controlOf {raw raw' : Product} (h : raw.toInt ≤ raw'.toInt) :
    (controlOf params raw).toNat ≤ (controlOf params raw').toNat := by
  have hcv := controlOf_toNat raw
  have hcv' := controlOf_toNat raw'
  omega

/-- COMPUTE attains the top and the bottom of its range (R70). -/
theorem controlOf_extremes :
    (controlOf params (productOf 255#8 127#8)).toNat = 11428 ∧
      (controlOf params (productOf 255#8 (BitVec.ofInt 8 (-128)))).toNat = 4927 := by
  rw [control_toNat, control_toNat]
  exact ⟨rfl, rfl⟩

/-- Settles O15: the two ends, the order of the floor, and the range without the bounds. -/
theorem computeRangeAndOrder : Obligations.ComputeRangeAndOrder := by
  obtain ⟨htop, hbottom⟩ := controlOf_extremes
  refine ⟨hbottom, htop, fun _ _ _ _ => controlOf_le_controlOf, fun d x => ?bounds⟩
  case bounds =>
    obtain ⟨hlow, hhigh⟩ := controlOf_productOf_bounds d x
    omega

/-- Settles O14: COMPUTE writes the product and its map, each on plain numbers. -/
theorem computeResult : Obligations.ComputeResult := by
  intro s
  obtain ⟨hlow, hhigh⟩ := controlOf_productOf_bounds s.wires.depth s.wires.sample
  exact ⟨compute s, rfl, productOf_toInt _ _, controlOf_toNat _, hlow, hhigh, rfl⟩

end Sys2Proof.AffineMap
end

section
/-! The results of the gate's actions, of SAMPLE_SW, FEEDBACK and WAIT (R74 to R78, R92, R94), what every
operation may write, and the machine's step. -/
namespace Sys2Proof.Operations

open Sys2Proof.Machine Sys2Proof.Safety Sys2Proof.Codec Sys2Proof.WholeLoop
  Sys2Proof.ProtocolEncoder Sys2Proof.Runs

/-! ### Single operations -/

/-- Settles O18: SAMPLE_SW is the write of one transient. -/
theorem sampleSwResult : Obligations.SampleSwResult := fun _ => rfl

/-- Settles O21: GATE.IDLE is the identity. -/
theorem gateIdleResult : Obligations.GateIdleResult := fun _ => rfl

/-- Settles O27: WAIT is the write of one transient. -/
theorem waitResult : Obligations.WaitResult := fun _ => rfl

/-- Settles O25: FEEDBACK writes one transient, in its domain the brightness of R92. -/
theorem feedbackResult : Obligations.FeedbackResult :=
  fun s => ⟨feedback s, rfl, brightnessOf_toNat, rfl⟩

/-- What GATE.MOD does to the whole state (R76). -/
theorem gateMod_eq (s : State) :
    gateMod s = { s with
      bright := brightnessOf params s.wires.cv
      tx := s.tx ++ message s.wires.cv.toNat
      wires := { s.wires with
        outCv := some s.wires.cv
        low := BitVec.ofNat 7 (s.wires.cv.toNat % 128)
        high := BitVec.ofNat 7 (s.wires.cv.toNat / 128)
        brightness := brightnessOf params s.wires.cv
        msg := s.wires.msg ++ message s.wires.cv.toNat } } := by
  rw [gateMod, sendValue_eq, message_toNat, ← lowOf_eq_ofNat, ← highOf_eq_ofNat]
  rfl

/-- What GATE.NEUTRAL does to the whole state (R77). -/
theorem gateNeutral_eq (s : State) :
    gateNeutral s = { s with
      bright := 0#8
      tx := s.tx ++ [0xE0#8, 0x00#8, 0x40#8]
      wires := { s.wires with
        outCv := some 8192#14
        low := 0#7
        high := 64#7
        msg := s.wires.msg ++ [0xE0#8, 0x00#8, 0x40#8] } } := by
  rw [gateNeutral, sendValue_eq]
  rfl

/-- Settles O19: the whole next state of GATE.MOD, its brightness in the domain of R92. -/
theorem gateModResult : Obligations.GateModResult := by
  refine fun _ s => ⟨gateMod s, rfl, ?bright, gateMod_eq s⟩
  case bright =>
    intro hlow hhigh
    rw [gateMod_eq]
    exact brightnessOf_toNat hlow hhigh

/-- Settles O20: the whole next state of GATE.NEUTRAL. -/
theorem gateNeutralResult : Obligations.GateNeutralResult :=
  fun s => congrArg Host.Outcome.next (gateNeutral_eq s)

/-- Settles O39: every arm of `exec` answers a next state. -/
theorem everyOperationCompletes : Obligations.EveryOperationCompletes := by
  intro i s
  cases i <;> exact ⟨_, rfl⟩

/-! ### What an operation may write -/

/-- What the operation `i` may do to a state: most write transients alone, and each register and the
stream has its own writers (R14, R15, R19, R84, R100). -/
inductive Writes (s : State) : Instr → State → Prop where
  | transients (i : Instr) (wires : Wires) : Writes s i (s.setWires wires)
  | phase (p : Phase) : Writes s .advance (s.setPhase p)
  | prevSw (l : Level) : Writes s .updatePrev (s.setPrevSw l)
  | stream (v : ControlValue) (tx : List Byte) (wires : Wires) :
      Writes s (.encode v) { s with tx := tx, wires := wires }
  | gateMod (prev : Level) (t : State) (hphase : t.phase = s.phase) (hprev : t.prevSw = s.prevSw) :
      Writes s (.gateMod prev) t
  | gateNeutral (t : State) (hphase : t.phase = s.phase) (hprev : t.prevSw = s.prevSw) :
      Writes s .gateNeutral t
  | iterate (t : State) : Writes s .iterate t
  | iterateCore (t : State) (hbright : t.bright = s.bright) : Writes s .iterateCore t

/-- A next state of `exec` is one that the operation's writes allow. -/
theorem writes_of_exec {i : Instr} {s t : State} (h : exec i s = .next t) : Writes s i t := by
  cases i with
  | gateMod prev =>
    obtain rfl := Host.Outcome.next.inj h
    exact .gateMod prev _ (by rw [gateMod_eq]) (by rw [gateMod_eq])
  | gateNeutral =>
    obtain rfl := Host.Outcome.next.inj h
    exact .gateNeutral _ (by rw [gateNeutral_eq]) (by rw [gateNeutral_eq])
  | encode v =>
    obtain rfl := Host.Outcome.next.inj h
    rw [encodeValue_eq]
    exact .stream v _ _
  | updatePrev => exact Host.Outcome.next.inj h ▸ .prevSw _
  | advance => exact Host.Outcome.next.inj h ▸ .phase _
  | iterate => exact .iterate t
  | iterateCore =>
    obtain rfl := Host.Outcome.next.inj h
    exact .iterateCore _ (by rw [iterateCore_eq])
  | _ => exact Host.Outcome.next.inj h ▸ .transients _ _

/-- Settles O44: in each case of an operation's writes, a register either is unchanged or has the
operation among its writers. -/
theorem onlyTheirOperationsWriteTheRegisters :
    Obligations.OnlyTheirOperationsWriteTheRegisters := by
  intro i s t hexec
  cases writes_of_exec hexec with
  | transients => simp
  | phase => simp
  | prevSw => simp
  | stream => simp
  | gateMod prev t hphase hprev => simp [hphase, hprev]
  | gateNeutral t hphase hprev => simp [hphase, hprev]
  | iterate => simp
  | iterateCore t hbright => simp [hbright]

/-! ### WAVE -/

/-- LOOKUP reads the one WAVE of this hardware at PHASE, whatever else the state holds (R32, R59). -/
theorem sample_of_exec_lookup {s t : State} (h : exec .lookup s = .next t) :
    t.wires.sample = memRead wave s.phase := by
  rw [← Host.Outcome.next.inj h]
  rfl

/-- LOOKUP gives the same sample in any two states of equal PHASE (R32). -/
theorem sample_eq_of_phase_eq {s t u v : State} (hs : exec .lookup s = .next u)
    (ht : exec .lookup t = .next v) (hphase : s.phase = t.phase) :
    u.wires.sample = v.wires.sample := by
  rw [sample_of_exec_lookup hs, sample_of_exec_lookup ht, hphase]

/-- Settles O43: a sample depends on PHASE alone, so what happened between two LOOKUPs does not matter. -/
theorem romIsNeverWritten : Obligations.RomIsNeverWritten := by
  refine ⟨fun s t u v hphase hs ht => sample_eq_of_phase_eq hs ht hphase,
    fun i s t u v a _ hbefore hafter => ⟨?same, ?wave⟩⟩
  case same => exact sample_eq_of_phase_eq hafter hbefore rfl
  case wave => exact sample_of_exec_lookup hbefore

/-- Settles O48: each field is reset's own, and LOOKUP depends on PHASE alone. -/
theorem warmResetStartsANewRun : Obligations.WarmResetStartsANewRun :=
  fun _ _ _ _ _ _ => ⟨rfl, rfl, rfl, rfl, rfl, rfl, rfl,
    fun hbefore hafter => sample_eq_of_phase_eq hafter hbefore rfl⟩

/-! ### The step -/

/-- Settles O40: with an empty slot both are one iteration in this hardware's WAVE. -/
theorem stepIsOneIteration : Obligations.StepIsOneIteration :=
  fun _ hslot => step_of_slot_nil hslot

/-- The operation that the levels' selector encodes is the gate's action (R46, R75). -/
theorem exec_gateInstr (s : State) :
    exec (gateInstr (selectorOf s.prevSw s.wires.sw)) s = .next (gate s) := by
  unfold gateInstr gate State.gateSelection
  cases gateAction (selectorOf s.prevSw s.wires.sw) <;> rfl

/-- The bytes in a nonempty slot are those fetched. -/
theorem fetchBytes_of_slot_ne_nil {s : State} (hslot : s.slot ≠ []) : s.fetchBytes = s.slot := by
  unfold State.fetchBytes
  split
  · contradiction
  · exact Eq.symm ‹_›

/-- With an empty slot the selector of PREV_SW and the record's level is fetched (R46). -/
theorem fetchBytes_of_slot_nil {s : State} (hslot : s.slot = []) :
    s.fetchBytes = [selectorByte (selectorOf s.prevSw s.currentIn.sw)] := by
  rw [State.fetchBytes, hslot]

/-- With bytes in the slot that decode, the step is the decoded operation from the emptied slot. -/
theorem step_of_slot_ok {s : State} {i : Instr} (hslot : s.slot ≠ [])
    (hdecode : decode s.slot = .ok i) : step s = exec i (s.setSlot []) := by
  unfold step
  split
  · contradiction
  · rw [fetchBytes_of_slot_ne_nil hslot, hdecode]

/-- With bytes in the slot that decode to nothing, the step is refused by name. -/
theorem step_of_slot_error {s : State} {e : DecodeError} (hslot : s.slot ≠ [])
    (hdecode : decode s.slot = .error e) : step s = .refused (.notAnEncoding e) := by
  unfold step
  split
  · contradiction
  · rw [fetchBytes_of_slot_ne_nil hslot, hdecode]

/-- The stages before the gate leave the levels that the selector is made of. -/
theorem beforeGate_levels (w : Wave) (s : State) :
    (beforeGate w s).prevSw = s.prevSw ∧ (beforeGate w s).wires.sw = s.currentIn.sw := by
  rw [beforeGate_eq]
  exact ⟨rfl, rfl⟩

/-- Settles O41: the selector fetched is the one the gate sees, and the slot's bytes are the ones
decoded. -/
theorem stepRunsTheDecodedOperation : Obligations.StepRunsTheDecodedOperation := by
  refine ⟨fun s hslot => ⟨fetchBytes_of_slot_nil hslot, ?gate⟩,
    fun s i => step_of_slot_ok, fun s e => step_of_slot_error⟩
  case gate =>
    have hexec := exec_gateInstr (beforeGate wave s)
    obtain ⟨hprev, hsw⟩ := beforeGate_levels wave s
    rw [hprev, hsw] at hexec
    refine ⟨_, _, ?_, hexec, step_of_slot_nil hslot⟩
    rw [fetchBytes_of_slot_nil hslot, decode_selectorByte]

/-! ### Placing a word -/

/-- A selector is GATE.MOD's with some previous level, GATE.NEUTRAL's or GATE.IDLE's (R47). -/
theorem selector_cases (sel : Selector) :
    (∃ prev, sel = selectorOf prev Level.low) ∨ sel = selectorOf Level.low Level.high ∨
      sel = selectorOf Level.high Level.high := by
  revert sel; decide

/-- A selector's byte is placed as that selector. -/
theorem placeBytes_selectorByte (s : State) (sel : Selector) :
    s.placeBytes [selectorByte sel] = s.placeSelector sel := by
  unfold State.placeBytes
  rw [decode_selectorByte]
  rcases selector_cases sel with ⟨prev, rfl⟩ | rfl | rfl
  · rw [gateInstr_of_active]
  · rfl
  · rfl

/-- A placed selector is fetched by the next step: its two bits stand in PREV_SW and in the record. -/
theorem fetchBytes_placeSelector (s : State) (sel : Selector) :
    (s.placeSelector sel).fetchBytes = [selectorByte sel] := by
  have hsw : (s.placeSelector sel).currentIn.sw = Selector.cur sel := by
    cases hinputs : s.inputs <;>
      simp [State.currentIn, State.loopRecord, State.placeSelector, hinputs]
  rw [fetchBytes_of_slot_nil rfl, hsw]
  exact congrArg (fun sel' => [selectorByte sel']) (selectorOf_prev_cur sel)

/-- Bytes of a message are placed in the slot. -/
theorem placeBytes_message (s : State) (v : ControlValue) :
    s.placeBytes [0xE0#8, septetByte (lowOf v), septetByte (highOf v)]
      = s.setSlot [0xE0#8, septetByte (lowOf v), septetByte (highOf v)] := by
  unfold State.placeBytes
  rw [decodeOfEncodeIsTheOperation _ _ (encode_encode v)]

/-- A word decodes to an operation when its bytes do. -/
theorem decode_of_decodeTableWord {nbits w : Nat} {i : Instr}
    (h : decodeTableWord nbits w = some i) : decode (tableBytes nbits w) = .ok i := by
  unfold decodeTableWord at h
  split at h
  case h_1 j hdecode => rw [hdecode, Option.some.inj h]
  case h_2 => cases h

/-- Settles O42: a selector is fetched from PREV_SW and the record, a message from the slot. -/
theorem placedWordIsFetched : Obligations.PlacedWordIsFetched := by
  intro s nbits w i hword
  have hdecode := decode_of_decodeTableWord hword
  rw [State.withFetchWord]
  rcases decode_ok_cases hdecode with ⟨sel, hbytes, rfl⟩ | ⟨v, hbytes, rfl⟩
  · rw [hbytes, placeBytes_selectorByte, fetchBytes_placeSelector]
    exact ⟨decode_selectorByte sel, _, step_of_slot_nil rfl⟩
  · rw [hbytes] at hdecode
    rw [hbytes, placeBytes_message]
    exact ⟨hdecode, _, (step_of_slot_ok (List.cons_ne_nil _ _) hdecode).trans (exec_encode v _)⟩

end Sys2Proof.Operations
end

section
/-! Reset, the parameters and the invariants of the block (R7, R30, R78, R93, R99, R101), and D0's
testable properties (R105). -/
namespace Sys2Proof.Invariants

open Sys2Proof.Machine Sys2Proof.Safety Sys2Proof.WholeLoop Sys2Proof.EnableGate
  Sys2Proof.OutboundStream Sys2Proof.BoundaryUnits Sys2Proof.Runs Sys2Proof.Codec

/-! ### Reset and the parameters -/

/-- Settles O45: each register is the one reset names, and entry 0 of this hardware's WAVE is 0. -/
theorem resetEstablishes : Obligations.ResetEstablishes :=
  fun _ _ => ⟨rfl, rfl, rfl, rfl, rfl, memRead_zero wave_wf⟩

/-- Settles O46: the parameters hold these two reset values. -/
theorem resetTakesTheDefaults : Obligations.ResetTakesTheDefaults := rfl

/-- Settles O53: the chosen reset brightness is 0. -/
theorem resetIsDark : Obligations.ResetIsDark := ⟨fun _ => rfl, by decide⟩

/-- Settles O54: an entry's range is its width's, and the rest are facts about constants. -/
theorem parametersMeetTheirConstraints : Obligations.ParametersMeetTheirConstraints :=
  ⟨rfl, memRead_bounds wave, memRead_zero wave_wf, by decide, by decide, by decide, by decide,
    by decide, by decide⟩

/-! ### The invariant of the block -/

/-- Settles O49: reset leaves no byte, no record, no transient and an empty slot. -/
theorem resetMeetsTheInvariant : Obligations.ResetMeetsTheInvariant := fun _ _ =>
  { slotEmpty := rfl
    wiresIdle := rfl
    txFramed := framed_nil
    txIsTrace := rfl
    recordsLegal := fun _ ho => nomatch ho }

/-- The gate sends nothing or the message of a value in [4927, 11428]: NEUTRAL lies there, too (R51). -/
theorem gateBytes_legal (prev sw : Level) {cv : ControlValue} (hlow : 4927 ≤ cv.toNat)
    (hhigh : cv.toNat ≤ 11428) :
    gateBytes prev sw cv = [] ∨
      ∃ v : Nat, 4927 ≤ v ∧ v ≤ 11428 ∧ gateBytes prev sw cv = message v := by
  rw [gateBytes_eq_emitted, emitted]
  split
  · exact .inr ⟨cv.toNat, hlow, hhigh, rfl⟩
  · split
    · exact .inr ⟨8192, by decide, by decide, rfl⟩
    · exact .inl rfl

/-- The record an iteration leaves (R98). -/
def recordOf (w : Wave) (s : State) : LoopOut where
  tx := gateBytes s.prevSw s.currentIn.sw (iterationCv w s)
  bright := gateBright s.prevSw s.currentIn.sw (iterationCv w s) s.bright
  waitUs := periodOf params s.currentIn.rawRate

/-- An iteration appends its record to the trace (R99). -/
theorem iterate_trace (w : Wave) (s : State) : (iterate w s).trace = s.trace ++ [recordOf w s] := by
  rw [iterate_eq]
  rfl

/-- The record of an iteration is legal (R25, R51). -/
theorem recordOf_legal (w : Wave) (s : State) : legalRecord (recordOf w s) := by
  obtain ⟨hlow, hhigh⟩ := iterationCv_bounds w s
  refine ⟨gateBytes_legal _ _ hlow hhigh, ?_⟩
  rw [recordOf, periodOf_toNat]
  exact period_bounds s.currentIn.rawRate

/-- An iteration keeps the invariant, in every WAVE. -/
theorem inv_iterate (w : Wave) {s : State} (h : Inv s) : Inv (iterate w s) where
  slotEmpty := (iterate_slot w s).trans h.slotEmpty
  wiresIdle := by rw [iterate_eq]
  txFramed := framed_iterate w h.txFramed
  txIsTrace := by
    rw [iterate_tx, iterate_trace, List.map_append, List.flatten_append, ← h.txIsTrace,
      List.map_singleton, List.flatten_singleton, recordOf]
  recordsLegal := by
    intro o ho
    rw [iterate_trace, List.mem_append, List.mem_singleton] at ho
    rcases ho with hold | rfl
    · exact h.recordsLegal o hold
    · exact recordOf_legal w s

/-- A step from an empty slot that answers a next state has run an iteration. -/
theorem eq_iterate_of_step {s t : State} (hslot : s.slot = []) (h : step s = .next t) :
    t = iterate wave s :=
  (Host.Outcome.next.inj ((step_of_slot_nil hslot).symm.trans h)).symm

/-- Settles O50: from the invariant's empty slot a step is an iteration, and each keeps it. -/
theorem stepKeepsTheInvariant : Obligations.StepKeepsTheInvariant := by
  refine ⟨fun s t hinv hstep => ?step, fun w s => inv_iterate w⟩
  case step =>
    rw [eq_iterate_of_step hinv.slotEmpty hstep]
    exact inv_iterate wave hinv

/-! ### Dark while off -/

/-- The gate leaves a brightness of at most 253, when it held one (R93). -/
theorem gateBright_le_253 (prev sw : Level) {cv : ControlValue} {held : Byte}
    (hlow : 4927 ≤ cv.toNat) (hhigh : cv.toNat ≤ 11428) (hheld : held.toNat ≤ 253) :
    (gateBright prev sw cv held).toNat ≤ 253 := by
  unfold gateBright
  split
  · exact brightnessOf_le_253 hlow hhigh
  · split
    · exact Nat.zero_le 253
    · exact hheld

/-- An iteration keeps the brightness dark while off and at most 253: the edge writes 0, and an idle
iteration holds the 0 that was there (R77, R78). -/
theorem darkWhenOff_iterate (w : Wave) {s : State} (h : DarkWhenOff s) :
    DarkWhenOff (iterate w s) := by
  obtain ⟨hdark, hbound⟩ := h
  refine ⟨fun hoff => ?dark, ?bound⟩
  case dark =>
    have hsw : s.currentIn.sw = Level.high := (iterate_prevSw w s).symm.trans hoff
    rcases level_cases s.prevSw with hprev | hprev
    · exact (iterate_of_edge w hprev hsw).2
    · exact (iterate_of_idle w hprev hsw).2.trans (hdark hprev)
  case bound =>
    obtain ⟨hlow, hhigh⟩ := iterationCv_bounds w s
    rw [iterate_eq]
    exact gateBright_le_253 _ _ hlow hhigh hbound

/-- Settles O52: from an empty slot a step is an iteration, and each keeps the brightness dark. -/
theorem stepKeepsDarkWhenOff : Obligations.StepKeepsDarkWhenOff := by
  refine ⟨fun s t hslot hdark hstep => ?step, fun w s => darkWhenOff_iterate w⟩
  case step =>
    rw [eq_iterate_of_step hslot hstep]
    exact darkWhenOff_iterate wave hdark

/-! ### D0's testable properties -/

/-- `n` iterations leave PHASE where it was exactly when `n` is a multiple of 256 (R63). -/
theorem iterate_many_phase_eq_iff (w : Wave) (n : Nat) (s : State) :
    ((iterate w)^[n] s).phase = s.phase ↔ n % 256 = 0 := by
  have hs : s.phase.toNat < 256 := s.phase.isLt
  have hphase : ((iterate w)^[n] s).phase.toNat = (s.phase.toNat + n) % 256 := by
    rw [iterate_many_eq, stateAfter, BitVec.toNat_ofNat, Nat.mod_mod]
  rw [← BitVec.toNat_inj, hphase]
  omega

/-- The receiver reads one message as its value (R87). -/
theorem parseTx_message (v : ControlValue) : parseTx (message v.toNat) = some [v] := by
  have h := parseTx_message_append v []
  rwa [List.append_nil] at h

/-- The nine properties hold in every legal WAVE (R105). -/
theorem testableProperties_of_wf {w : Wave} (hw : w.wf = true) : TestableProperties w where
  sampleRange := ⟨memRead_bounds w, Wavetable.memRead_toInt_of_phase_zero (s := State.reset) rfl hw⟩
  phasePeriod := iterate_many_phase_eq_iff w
  computeBounds d x := by
    obtain ⟨hlow, hhigh⟩ := controlOf_productOf_bounds d x
    omega
  zeroDepth x := by
    rw [Modulator.productOf_zero_depth, Modulator.controlOf_zero]
    rfl
  extremes := AffineMap.controlOf_extremes
  edge s hprev hsw := iterate_of_edge w hprev hsw
  activeMessage s hsw :=
    ⟨iterationCv w s, iterationCv_toNat w s, iterate_tx_of_active w hsw, parseTx_message _⟩
  encodings s := ⟨ProtocolEncoder.encodeValue_tx 8192#14 s, ProtocolEncoder.encodeValue_tx 0#14 s,
    ProtocolEncoder.encodeValue_tx 16383#14 s⟩
  silence s hprev hsw := (iterate_of_idle w hprev hsw).1

/-- Settles O55: the properties of every legal WAVE, of which this hardware's is one. -/
theorem testablePropertiesHold : Obligations.TestablePropertiesHold :=
  ⟨fun _ => testableProperties_of_wf, testableProperties_of_wf wave_wf, fun _ => rfl,
    fun _ => step_of_slot_nil⟩

end Sys2Proof.Invariants
end
